-- ==== Sys2Proof/Word.lean ====
section
/-! DEFINITION. The word types of the block (spec 00_scope.md R11): bytes, halfwords, the 64-bit state word. -/

namespace Sys2Proof

/-- `u8`: one byte of flash or of a host buffer (R11). -/
abbrev Byte := BitVec 8

/-- `u16`: one halfword, the unit flash is programmed in (R11, R13). -/
abbrev Half := BitVec 16

/-- `u64`: one page state word (R11, R91). -/
abbrev StateWord := BitVec 64

end Sys2Proof
end

