-- ==== Sys2Proof/Config.lean ====
section
/-! DEFINITION. What an implementation fixes (spec 00_scope.md R7) and the free values: outcomes of flash calls, torn
contents and the step register outside WRITE, which no rule of the spec fixes (R17, R27, R62, R64, R69), and bytes past
the end of a byte list. -/

namespace Sys2Proof

/-- The order of the bytes of a wider value: most significant first, or least significant first (R7). -/
inductive ByteOrder where
  | be
  | le
  deriving DecidableEq, Repr, Inhabited

/-- `WAIT_BUDGET` (R7, R228): whether the wait for flash completion is bounded. -/
inductive WaitBudget where
  | finite
  | infinite
  deriving DecidableEq, Repr, Inhabited

/-- The implementation parameters of R7. `P` is derived from `F` (R9). -/
structure Config where
  /-- `F`, the bytes of one physical page. -/
  pageSize : Nat
  /-- `PAGE1_ADDR`. -/
  page1Addr : Nat
  /-- `PAGE2_ADDR`. -/
  page2Addr : Nat
  /-- `HW_ORDER`: which byte of a halfword lies at the lower flash address (R56). -/
  hwOrder : ByteOrder
  /-- `AW`, the width of `ADDR` and `LEN`. -/
  addrWidth : Nat
  /-- `WAIT_BUDGET`. -/
  waitBudget : WaitBudget
  /-- `ACC_ORDER`: the byte order of the 16- and 32-bit typed accessors (R200). -/
  accOrder : ByteOrder
  deriving DecidableEq, Repr

/-- `REF-1K` (R10), with the defaults of R7. `ACC_ORDER` has no default: DESIGN CHOICE `BE` (log entry 2). -/
def Config.ref1K : Config :=
  { pageSize := 1024, page1Addr := 0x1000, page2Addr := 0x1400, hwOrder := .be, addrWidth := 32,
    waitBudget := .finite, accOrder := .be }

/-- `REF-16` (R10), with the defaults of R7 and the same choice for `ACC_ORDER`. -/
def Config.ref16 : Config :=
  { pageSize := 16, page1Addr := 0x00, page2Addr := 0x10, hwOrder := .be, addrWidth := 32,
    waitBudget := .finite, accOrder := .be }

/-- The answer of the environment to one mutating Flash Access Layer call: the three outcomes of R69, and power loss
at that call (R242), before it begins or while it is in progress. -/
inductive DrawKind where
  /-- "the hardware signals completion without error" (R69); for `unlock()`, `ok` (R66). -/
  | doneOk
  /-- "hardware reports a program error" (R69); for `unlock()`, `fail` (R66). -/
  | doneErr
  /-- "the busy flag never clears" (R69); for `unlock()`, `fail` (R66). -/
  | noCompletion
  /-- Power is lost before the call begins: it "has no effect" (R242). -/
  | cutBefore
  /-- Power is lost during the call: its target is torn (R242, R243). -/
  | cutDuring
  deriving DecidableEq, Repr, Inhabited

/-- One draw (R17): the outcome, and the bytes a call that does not succeed leaves in its target, as far as the
environment names them (a byte it does not name is `Config.freeByte`). -/
structure Draw where
  kind : DrawKind
  junk : List Byte
  deriving DecidableEq, Repr, Inhabited

/-- `STEP` (R27): `IDLE`, or the number of the `WRITE` step in progress. -/
inductive StepReg where
  | idle
  | s1
  | s2
  | s3
  | s4
  | s5
  | s6
  | s7
  | s8
  | s9
  | s10
  deriving DecidableEq, Repr, Inhabited

/-- FREE VALUE: the `n`-th draw, where the environment's answers run out (log entry 7). -/
opaque Config.freeDraw : Nat → Draw

/-- FREE VALUE: byte `i` of what the `n`-th draw leaves behind, where the draw does not name it (log entry 8). -/
opaque Config.freeByte : Nat → Nat → Byte

/-- FREE VALUE: `STEP` during a command other than `WRITE` (R27; log entry 12). -/
opaque Config.freeStep : Nat → StepReg

/-- FREE VALUE: byte `i` of a byte list too short to have one, where the spec defines an operation on longer lists only
(R200; log entry 29). -/
opaque Config.freeBeyond : List Byte → Nat → Byte

end Sys2Proof
end

