-- ==== Sys2Proof/Syntax.lean ====
section
/-! DEFINITION. The syntax: page designators, page states, the 16 instructions of the opcode table, and the frames
they travel in (spec 30_encoding.md R91, R96, R97, R99 to R102, R109). -/

namespace Sys2Proof

/-- One of the two physical pages (R14). -/
inductive Page where
  | p1
  | p2
  deriving DecidableEq, Repr, Inhabited

/-- A page designator (R97): the value of `ACTIVE`, `INACTIVE` and of a `PAGE` operand. -/
inductive Designator where
  | none
  | page1
  | page2
  deriving DecidableEq, Repr, Inhabited

/-- The result of decoding a state word: one of the five canonical states, or Corrupt (R91, R94, R96). -/
inductive PageState where
  | erased
  | write
  | valid
  | copy
  | invalid
  | corrupt
  deriving DecidableEq, Repr, Inhabited

/-- The instructions: one constructor for each row of the opcode table (R101, R102, R109). `addr` and `len` are the
unsigned operands of R103, below `2 ^ AW` in a well-formed instruction. -/
inductive Instr where
  /-- `INIT` (R151). -/
  | init
  /-- `READ addr, n` (R158). -/
  | read (addr len : Nat)
  /-- `WRITE addr, data, n` (R172); `data` has `n` bytes in a well-formed instruction. -/
  | write (addr len : Nat) (data : List Byte)
  /-- `MASS_ERASE` (R162). -/
  | massErase
  /-- `DECODE_STATE raw` (R121). -/
  | decodeState (raw : StateWord)
  /-- `ADVANCE_STATE page` (R124). -/
  | advanceState (page : Designator)
  /-- `SET_STATE page, target` (R126). -/
  | setState (page : Designator) (target : PageState)
  /-- `CSUM_COMPUTE page` (R141). -/
  | csumCompute (page : Designator)
  /-- `CSUM_STORED page` (R142). -/
  | csumStored (page : Designator)
  /-- `CSUM_INTACT page` (R143). -/
  | csumIntact (page : Designator)
  /-- `READ_8 addr` (R201). -/
  | read8 (addr : Nat)
  /-- `READ_16 addr` (R202). -/
  | read16 (addr : Nat)
  /-- `READ_32 addr` (R203). -/
  | read32 (addr : Nat)
  /-- `WRITE_8 addr, v` (R204). -/
  | write8 (addr : Nat) (v : BitVec 8)
  /-- `WRITE_16 addr, v` (R205). -/
  | write16 (addr : Nat) (v : BitVec 16)
  /-- `WRITE_32 addr, v` (R206). -/
  | write32 (addr : Nat) (v : BitVec 32)
  deriving DecidableEq, Repr

/-- What travels on a port: the frame word of `8 + 2 * AW` bits with its byte stream on the host port (R99), or the
72-bit word of the internal bus (R102). -/
inductive Frame where
  | host (word : Nat) (data : List Byte)
  | ubus (word : BitVec 72)
  deriving DecidableEq, Repr

end Sys2Proof
end

