-- ==== Sys2Proof/WellFormed.lean ====
section
/-! DEFINITION. Which instruction terms are well formed: operands that fit their encoding and lie in the domains the
spec gives them (30_encoding.md R99, R103, R104). -/

namespace Sys2Proof

/-- An `ADDR` or `LEN` operand fits its `AW` bits (R99, R103). -/
def fitsOperand (aw n : Nat) : Bool := decide (n < 2 ^ aw)

/-- A `PAGE` operand "must be `PAGE1` or `PAGE2`" (R104). -/
def pageOperandOk : Designator → Bool
  | .none => false
  | .page1 => true
  | .page2 => true

/-- A `TARGET` operand "must be one of the five canonical codes 0 to 4" (R104). -/
def targetOperandOk : PageState → Bool
  | .corrupt => false
  | .erased => true
  | .write => true
  | .valid => true
  | .copy => true
  | .invalid => true

/-- Well-formed instructions for `ADDR` and `LEN` of `aw` bits. -/
def wellFormed (aw : Nat) : Instr → Bool
  | .init => true
  | .read addr len => fitsOperand aw addr && fitsOperand aw len
  | .write addr len data => fitsOperand aw addr && fitsOperand aw len && decide (data.length = len)
  | .massErase => true
  | .decodeState _ => true
  | .advanceState page => pageOperandOk page
  | .setState page target => pageOperandOk page && targetOperandOk target
  | .csumCompute page => pageOperandOk page
  | .csumStored page => pageOperandOk page
  | .csumIntact page => pageOperandOk page
  | .read8 addr => fitsOperand aw addr && fitsOperand aw 1
  | .read16 addr => fitsOperand aw addr && fitsOperand aw 2
  | .read32 addr => fitsOperand aw addr && fitsOperand aw 4
  | .write8 addr _ => fitsOperand aw addr && fitsOperand aw 1
  | .write16 addr _ => fitsOperand aw addr && fitsOperand aw 2
  | .write32 addr _ => fitsOperand aw addr && fitsOperand aw 4

end Sys2Proof
end

