-- ==== Sys2Proof/Decode.lean ====
section
/-! DEFINITION. The decoders of the two ports, total and refusing by name, and after them the encoder, written from the
tables of spec 30_encoding.md (R96, R97, R99, R101, R102, R105, R109) and 44_typed_accessors.md (R200). -/

namespace Sys2Proof

/-- Why a frame is no instruction of its port. -/
inductive DecodeError where
  /-- Host port: `CMD` is none of `0x01` to `0x04` (R105). The command completes with `IllegalCommand`. -/
  | illegalCommand (cmd : Byte)
  /-- Internal bus: `CMD` is no micro-operation code (R105). -/
  | notAMicroOperation (cmd : Byte)
  /-- Internal bus: `PAGE` holds code 3, which no designator has (R97). -/
  | pageCode
  /-- Internal bus: `TARGET` holds code 5 or 6, which no state has (R96). -/
  | targetCode
  deriving DecidableEq, Repr

/-! ### Fields and concatenation (R11) -/

/-- The `n` bits of `v` from bit `lo` on: `v[lo + n - 1 : lo]`. -/
def bitField {w : Nat} (v : BitVec w) (lo n : Nat) : BitVec n := BitVec.ofNat n (v.toNat / 2 ^ lo)

/-- `{hi, lo}` of two bytes, `hi` the more significant. -/
def concat8 (hi lo : BitVec 8) : BitVec 16 := BitVec.ofNat 16 (hi.toNat * 2 ^ 8 + lo.toNat)

/-- `{hi, lo}` of two halfwords. -/
def concat16 (hi lo : BitVec 16) : BitVec 32 := BitVec.ofNat 32 (hi.toNat * 2 ^ 16 + lo.toNat)

/-- `{hi, lo}` of two words. -/
def concat32 (hi lo : BitVec 32) : BitVec 64 := BitVec.ofNat 64 (hi.toNat * 2 ^ 32 + lo.toNat)

/-! ### Codes of operands -/

/-- The 2-bit page designator code (R97). -/
def Designator.code : Designator → BitVec 2
  | .none => 0
  | .page1 => 1
  | .page2 => 2

/-- The designator a 2-bit code stands for; code 3 stands for none (R97). -/
def Designator.ofCode (c : BitVec 2) : Option Designator :=
  if c = 0 then some .none
  else if c = 1 then some .page1
  else if c = 2 then some .page2
  else Option.none

/-- The 3-bit state code (R96). -/
def PageState.code : PageState → BitVec 3
  | .erased => 0
  | .write => 1
  | .valid => 2
  | .copy => 3
  | .invalid => 4
  | .corrupt => 7

/-- The state a 3-bit code stands for; codes 5 and 6 stand for none (R96). -/
def PageState.ofCode (c : BitVec 3) : Option PageState :=
  if c = 0 then some .erased
  else if c = 1 then some .write
  else if c = 2 then some .valid
  else if c = 3 then some .copy
  else if c = 4 then some .invalid
  else if c = 7 then some .corrupt
  else Option.none

/-! ### The host port -/

/-- `CMD`, `frame[7:0]` (R99). -/
def frameCmd (word : Nat) : Byte := BitVec.ofNat 8 word

/-- `ADDR`, `frame[8 + AW - 1 : 8]` (R99). -/
def frameAddr (aw word : Nat) : Nat := word / 2 ^ 8 % 2 ^ aw

/-- `LEN`, `frame[8 + 2*AW - 1 : 8 + AW]` (R99). -/
def frameLen (aw word : Nat) : Nat := word / 2 ^ (8 + aw) % 2 ^ aw

/-- The decoder of the host port (R101, R105): "A decoder tells a command by `CMD` alone; the length of `WDATA` is
`LEN`" (R107). The typed accessors are other spellings of `READ` and `WRITE` and decode to those (R109). -/
def decodeHost (aw word : Nat) (data : List Byte) : Except DecodeError Instr :=
  let cmd := frameCmd word
  if cmd = 0x01 then .ok .init
  else if cmd = 0x02 then .ok (.read (frameAddr aw word) (frameLen aw word))
  else if cmd = 0x03 then
    .ok (.write (frameAddr aw word) (frameLen aw word) (data.take (frameLen aw word)))
  else if cmd = 0x04 then .ok .massErase
  else .error (.illegalCommand cmd)

/-! ### The internal bus -/

/-- The instruction of a micro-operation frame whose operand is a `PAGE` in `ubus[9:8]` (R102). -/
def decodePageOp (word : BitVec 72) (op : Designator → Instr) : Except DecodeError Instr :=
  match Designator.ofCode (bitField word 8 2) with
  | some page => .ok (op page)
  | Option.none => .error .pageCode

/-- The instruction of a `SET_STATE` frame: `PAGE` in `ubus[9:8]`, `TARGET` in `ubus[12:10]` (R102). -/
def decodeSetState (word : BitVec 72) : Except DecodeError Instr :=
  match PageState.ofCode (bitField word 10 3) with
  | some target => decodePageOp word (fun page => .setState page target)
  | Option.none => .error .targetCode

/-- The decoder of the internal bus (R102): `CMD` in `ubus[7:0]`, `RAW` in `ubus[71:8]`. -/
def decodeUbus (word : BitVec 72) : Except DecodeError Instr :=
  let cmd := bitField word 0 8
  if cmd = 0x10 then .ok (.decodeState (bitField word 8 64))
  else if cmd = 0x11 then decodePageOp word .advanceState
  else if cmd = 0x12 then decodeSetState word
  else if cmd = 0x20 then decodePageOp word .csumCompute
  else if cmd = 0x21 then decodePageOp word .csumStored
  else if cmd = 0x22 then decodePageOp word .csumIntact
  else .error (.notAMicroOperation cmd)

/-- The decoder: each frame by the port it is on. -/
def decodeFrame (aw : Nat) : Frame → Except DecodeError Instr
  | .host word data => decodeHost aw word data
  | .ubus word => decodeUbus word

/-- The frame of an instruction whose bits, numbered as the opcode table numbers them, are the low `nbits` bits of `w`
and zero above. `CMD[7:4]` is the class (R101): classes 1 and 2 travel on the ubus (R102), every other on the host
port, with a byte stream of `LEN` zero bytes. -/
def tableFrame (aw nbits w : Nat) : Frame :=
  let word := w % 2 ^ nbits
  let cls := bitField (frameCmd word) 4 4
  if cls = 1 ∨ cls = 2 then .ubus (BitVec.ofNat 72 word)
  else .host word (List.replicate (frameLen aw word) 0)

/-- The instruction the decoder reads from an opcode-table word; `AW` is 32 there (R7, R99). -/
def decodeTableWord (nbits w : Nat) : Option Instr :=
  match decodeFrame 32 (tableFrame 32 nbits w) with
  | .ok i => some i
  | .error _ => none

/-! ### The encoder -/

/-- `bytes_2(v)` (R200). -/
def bytes2 (order : ByteOrder) (v : BitVec 16) : List Byte :=
  match order with
  | .be => [bitField v 8 8, bitField v 0 8]
  | .le => [bitField v 0 8, bitField v 8 8]

/-- `bytes_4(v)` (R200). -/
def bytes4 (order : ByteOrder) (v : BitVec 32) : List Byte :=
  match order with
  | .be => [bitField v 24 8, bitField v 16 8, bitField v 8 8, bitField v 0 8]
  | .le => [bitField v 0 8, bitField v 8 8, bitField v 16 8, bitField v 24 8]

/-- The host frame word `{LEN, ADDR, CMD}` (R99). -/
def hostWord (aw cmd addr len : Nat) : Nat := cmd + addr * 2 ^ 8 + len * 2 ^ (8 + aw)

/-- The 72-bit ubus word of a micro-operation: code, `PAGE` and `TARGET`, the bits above zero (R102). -/
def ubusWord (cmd : Byte) (page : BitVec 2) (target : BitVec 3) : BitVec 72 :=
  BitVec.ofNat 72 (cmd.toNat + page.toNat * 2 ^ 8 + target.toNat * 2 ^ 10)

/-- The frame of a well-formed instruction; parts it does not use are zero (R99). A typed accessor is its base
command's frame (R109, R201 to R206). -/
def encode (cfg : Config) : Instr → Frame
  | .init => .host (hostWord cfg.addrWidth 0x01 0 0) []
  | .read addr len => .host (hostWord cfg.addrWidth 0x02 addr len) []
  | .write addr len data => .host (hostWord cfg.addrWidth 0x03 addr len) data
  | .massErase => .host (hostWord cfg.addrWidth 0x04 0 0) []
  | .decodeState raw => .ubus (BitVec.ofNat 72 (0x10 + raw.toNat * 2 ^ 8))
  | .advanceState page => .ubus (ubusWord 0x11 page.code 0)
  | .setState page target => .ubus (ubusWord 0x12 page.code target.code)
  | .csumCompute page => .ubus (ubusWord 0x20 page.code 0)
  | .csumStored page => .ubus (ubusWord 0x21 page.code 0)
  | .csumIntact page => .ubus (ubusWord 0x22 page.code 0)
  | .read8 addr => .host (hostWord cfg.addrWidth 0x02 addr 1) []
  | .read16 addr => .host (hostWord cfg.addrWidth 0x02 addr 2) []
  | .read32 addr => .host (hostWord cfg.addrWidth 0x02 addr 4) []
  | .write8 addr v => .host (hostWord cfg.addrWidth 0x03 addr 1) [v]
  | .write16 addr v => .host (hostWord cfg.addrWidth 0x03 addr 2) (bytes2 cfg.accOrder v)
  | .write32 addr v => .host (hostWord cfg.addrWidth 0x03 addr 4) (bytes4 cfg.accOrder v)

/-- The core instruction whose words an instruction's are (R109, R201 to R206): a typed accessor's expansion, any
other instruction itself. -/
def expand (cfg : Config) : Instr → Instr
  | .read8 addr => .read addr 1
  | .read16 addr => .read addr 2
  | .read32 addr => .read addr 4
  | .write8 addr v => .write addr 1 [v]
  | .write16 addr v => .write addr 2 (bytes2 cfg.accOrder v)
  | .write32 addr v => .write addr 4 (bytes4 cfg.accOrder v)
  | .init => .init
  | .read addr len => .read addr len
  | .write addr len data => .write addr len data
  | .massErase => .massErase
  | .decodeState raw => .decodeState raw
  | .advanceState page => .advanceState page
  | .setState page target => .setState page target
  | .csumCompute page => .csumCompute page
  | .csumStored page => .csumStored page
  | .csumIntact page => .csumIntact page

end Sys2Proof
end

