-- ==== Sys2Proof/Machine/State.lean ====
section
/-! DEFINITION. The state of the block (spec 10_state.md R20) as plain data, with the model's own input fields, the
reasons a step can stop, the named updates of one field, and the state after reset (R40). -/

namespace Sys2Proof.Machine

/-- The error kinds of 60_exceptions.md R210. -/
inductive ErrorKind where
  /-- "address+length exceeds payload capacity, or no active page yet" (R211). -/
  | outOfRange
  /-- "flash reports program/erase/write-protect violation" (R212). -/
  | hardwareProgramError
  /-- "a page-state field expected to still be all-1 was found otherwise" (R213). -/
  | stateTransitionViolation
  /-- "payload integrity check failed" (R214). -/
  | checksumMismatch
  /-- "a page state field decodes to none of the five canonical patterns" (R215); no command completes with it. -/
  | corrupt
  /-- A flash operation did not complete within the wait budget (R216). -/
  | timeout
  /-- The host presented a `CMD` that is no host command (R217). -/
  | illegalCommand
  deriving DecidableEq, Repr

/-- `STATUS` (R26, R98): the kind with which the last command completed. -/
inductive Status where
  | ok
  | error (k : ErrorKind)
  deriving DecidableEq, Repr

/-- `LOCK` (R28): the flash write-protect state. -/
inductive Lock where
  | locked
  | unlocked
  deriving DecidableEq, Repr

/-- What a micro-operation presented alone on the ubus answered (R102, "returns"); a field of the model (log entry 13). -/
inductive MicroResult where
  /-- None has been presented since reset. -/
  | none
  /-- A state code (`DECODE_STATE`, `ADVANCE_STATE`). -/
  | state (p : PageState)
  /-- A `u16` (`CSUM_COMPUTE`, `CSUM_STORED`). -/
  | half (v : Half)
  /-- One bit (`CSUM_INTACT`). -/
  | bit (b : Bool)
  /-- `SET_STATE` returned ok. -/
  | ok
  /-- `SET_STATE` raised a kind. -/
  | raised (k : ErrorKind)
  deriving DecidableEq, Repr

/-- What the outside delivers: a frame presented on a port (R99, R102), or reset and power loss, which are one event
raised "at any moment" (R240, R242). One raised before or during a mutating call comes with the call's draw instead
(`DrawKind`; log entry 9). -/
inductive Input where
  | frame (f : Frame)
  /-- Reset between commands, or while one hangs. -/
  | reset
  /-- Reset inside the command of the frame before it, past its last mutating call and before it completes: at any moment
  of a command that makes none. -/
  | resetInside
  deriving DecidableEq, Repr

/-- `FLASH` as (address, byte) pairs, addresses strictly rising, none equal to the erased byte that an unlisted address
reads as (`Memory.read`). -/
abbrev Memory := List Host.Cell

/-- Why the machine stops with a fault. -/
inductive Fault where
  /-- `WRITE` passed its precondition with `INACTIVE = NONE`, so the base of no page would be needed, which "is never
  evaluated by any rule" (R14). Raised by the `WRITE` meanings, only in states that break the pair invariant R23 and
  that no run reaches. Safe: the model claims nothing past it. -/
  | baseOfNone
  deriving DecidableEq, Repr

/-- Why a step has no meaning. -/
inductive Refusal where
  /-- An instruction without a meaning in this model; raised by no arm of `exec`. Safe. -/
  | notModelled (mnemonic : String)
  /-- A frame or instruction while `BUSY = 1` (R100, R232): the spec refuses the run. Raised by every meaning and by
  frames that decode to none. Safe. -/
  | commandWhileBusy
  /-- The configuration breaks a constraint of R7 or R8 and has no meaning. Raised by every step and every meaning.
  Safe. -/
  | illegalConfiguration
  /-- A micro-operation operand outside R104: `PAGE = NONE` or `TARGET = Corrupt`. Raised by the micro-operations. Safe. -/
  | operandOutOfDomain
  /-- A `WRITE` whose byte stream is not the `LEN` bytes of R99. Raised by the `WRITE` meaning. Safe. -/
  | writeDataLength
  /-- A ubus frame that is no micro-operation (R105). Raised by the step. Safe. -/
  | microFrameWithoutMeaning
  deriving DecidableEq, Repr

/-- The state: the registers and flash of R20 under their names, and the model's own fields `cfg`, `ures`, `inputs`,
`draws` and `drawn`. -/
structure State where
  /-- The implementation parameters (R7); no step changes them. -/
  cfg : Config
  /-- `ACTIVE` (R21). -/
  active : Designator
  /-- `INACTIVE` (R21). -/
  inactive : Designator
  /-- `STATUS` (R26). -/
  status : Status
  /-- `BUSY` (R26). -/
  busy : Bool
  /-- `CMD` (R24). -/
  cmd : Byte
  /-- `ADDR` (R24). -/
  addr : Nat
  /-- `LEN` (R24). -/
  len : Nat
  /-- `WDATA` (R24). -/
  wdata : List Byte
  /-- `RDATA` (R24). -/
  rdata : List Byte
  /-- `STEP` (R27). -/
  step : StepReg
  /-- `SREG` (R30). -/
  sreg : StateWord
  /-- `ACC` (R31). -/
  acc : Half
  /-- `LOCK` (R28). -/
  lock : Lock
  /-- `FBUSY` (R29). -/
  fbusy : Bool
  /-- `FLASH` (R32). -/
  flash : Memory
  /-- The model's own: the answer of the last micro-operation presented alone. -/
  ures : MicroResult
  /-- The model's own: what the outside has yet to deliver, first one first. -/
  inputs : List Input
  /-- The model's own: the draws the environment has settled, first one first (R17, R69). -/
  draws : List Draw
  /-- The model's own: how many draws have been made. -/
  drawn : Nat
  deriving DecidableEq, Repr

/-! ### One update per register -/

/-- `ACTIVE <- a ; INACTIVE <- i`. -/
def State.setDesignation (s : State) (a i : Designator) : State :=
  { s with active := a, inactive := i }

/-- `STATUS <- k`. -/
def State.setStatus (s : State) (k : Status) : State :=
  { s with status := k }

/-- `BUSY <- b`. -/
def State.setBusy (s : State) (b : Bool) : State :=
  { s with busy := b }

/-- `CMD <- c`. -/
def State.setCmd (s : State) (c : Byte) : State :=
  { s with cmd := c }

/-- `ADDR <- a ; LEN <- n`. -/
def State.setOperands (s : State) (a n : Nat) : State :=
  { s with addr := a, len := n }

/-- `WDATA <- d`. -/
def State.setWdata (s : State) (d : List Byte) : State :=
  { s with wdata := d }

/-- `RDATA <- d`. -/
def State.setRdata (s : State) (d : List Byte) : State :=
  { s with rdata := d }

/-- `STEP <- k`. -/
def State.setStep (s : State) (k : StepReg) : State :=
  { s with step := k }

/-- `SREG <- w`. -/
def State.setSreg (s : State) (w : StateWord) : State :=
  { s with sreg := w }

/-- `ACC <- v`. -/
def State.setAcc (s : State) (v : Half) : State :=
  { s with acc := v }

/-- `LOCK <- l`. -/
def State.setLock (s : State) (l : Lock) : State :=
  { s with lock := l }

/-- `FBUSY <- b`. -/
def State.setFbusy (s : State) (b : Bool) : State :=
  { s with fbusy := b }

/-- New flash contents. -/
def State.setFlash (s : State) (m : Memory) : State :=
  { s with flash := m }

/-- The answer of a micro-operation presented alone. -/
def State.setUres (s : State) (r : MicroResult) : State :=
  { s with ures := r }

/-- What the outside has yet to deliver. -/
def State.setInputs (s : State) (l : List Input) : State :=
  { s with inputs := l }

/-- One draw has been made. -/
def State.popDraw (s : State) : State :=
  { s with draws := s.draws.tail, drawn := s.drawn + 1 }

/-! ### Reset -/

/-- The state right after reset of a block configured as `REF-1K` (R10), before the outside delivers anything: the
values of R40. `CMD`, `ADDR`, `LEN`, `WDATA`, `RDATA`, `SREG` and `ACC` are "unspecified" there: DESIGN CHOICE zero or
empty (log entry 5). Configuration and flash contents: DESIGN CHOICE (log entries 2 and 4). -/
def State.reset : State :=
  { cfg := Config.ref1K
    active := .none
    inactive := .none
    status := .ok
    busy := false
    cmd := 0
    addr := 0
    len := 0
    wdata := []
    rdata := []
    step := .idle
    sreg := 0
    acc := 0
    lock := .locked
    fbusy := false
    flash := []
    ures := .none
    inputs := []
    draws := []
    drawn := 0 }

end Sys2Proof.Machine
end

