-- ==== Sys2Proof/Machine/Operands.lean ====
section
/-! DEFINITION. Operands: the page geometry a configuration gives (spec 00_scope.md R7 to R9, R14; 20_memory.md R52,
R53), halfword composition (R18), the fields of a state word (30_encoding.md R91, R92) and the packing of the typed
accessors (44_typed_accessors.md R200). -/

namespace Sys2Proof.Machine

/-! ### Geometry -/

/-- The constraints of R7 and R8, and of the decision D6 they cite: `F` even and at least 12, even bases, pages that do
not overlap, `base + F` not above `2 ^ AW`. -/
def legalConfig (c : Config) : Bool :=
  decide (c.pageSize % 2 = 0 ∧ 12 ≤ c.pageSize ∧ c.page1Addr % 2 = 0 ∧ c.page2Addr % 2 = 0 ∧
    (c.page1Addr + c.pageSize ≤ c.page2Addr ∨ c.page2Addr + c.pageSize ≤ c.page1Addr) ∧
    c.page1Addr + c.pageSize ≤ 2 ^ c.addrWidth ∧ c.page2Addr + c.pageSize ≤ 2 ^ c.addrWidth)

/-- `P = F - 10` (R9). -/
def payloadSize (c : Config) : Nat := c.pageSize - 10

/-- `base(page)` (R14). -/
def base (c : Config) : Page → Nat
  | .p1 => c.page1Addr
  | .p2 => c.page2Addr

/-- `other(page)` (R14). -/
def otherPage : Page → Page
  | .p1 => .p2
  | .p2 => .p1

/-- The page a designator names, if any (R14, R97). -/
def pageOf : Designator → Option Page
  | .none => Option.none
  | .page1 => some .p1
  | .page2 => some .p2

/-- The designator of a page (R97). -/
def designatorOf : Page → Designator
  | .p1 => .page1
  | .p2 => .page2

/-- The address of the checksum field, offset `P` (R52). -/
def checksumAddr (c : Config) (p : Page) : Nat := base c p + payloadSize c

/-- `field_addr(page, k) = base(page) + P + 2 + 2 * k` (R53). -/
def fieldAddr (c : Config) (p : Page) (k : Nat) : Nat := base c p + payloadSize c + 2 + 2 * k

/-! ### Halfwords -/

/-- `H(b0, b1)` (R18): the halfword whose bytes are `b0` at the lower and `b1` at the higher address. -/
def composeHalf (order : ByteOrder) (b0 b1 : Byte) : Half :=
  match order with
  | .be => concat8 b0 b1
  | .le => concat8 b1 b0

/-- `lo_addr_byte(v)` (R18): the byte a halfword places at the lower address. -/
def loAddrByte (order : ByteOrder) (v : Half) : Byte :=
  match order with
  | .be => bitField v 8 8
  | .le => bitField v 0 8

/-- `hi_addr_byte(v)` (R18): the byte a halfword places at the higher address. -/
def hiAddrByte (order : ByteOrder) (v : Half) : Byte :=
  match order with
  | .be => bitField v 0 8
  | .le => bitField v 8 8

/-! ### State words -/

/-- The number of a canonical state (R92). Corrupt has none: its row is never used, as Corrupt "is not a target" (R104),
and the number it holds is a DESIGN CHOICE (log entry 29). -/
def stateNumber : PageState → Nat
  | .erased => 0
  | .write => 1
  | .valid => 2
  | .copy => 3
  | .invalid => 4
  | .corrupt => 0

/-- `target_field(s, k) = 0x0000 if k < s else 0xFFFF` (R92). -/
def targetField (s : PageState) (k : Nat) : Half :=
  if k < stateNumber s then 0x0000 else 0xFFFF

/-! ### Packing of the typed accessors -/

/-- Byte `i` of a byte list. Past its end the spec defines nothing: a free value, DESIGN CHOICE (log entry 29). -/
def byteAt (l : List Byte) (i : Nat) : Byte := l.getD i (Config.freeBeyond l i)

/-- `pack_1` (R200): the identity on one byte. R200 defines each `pack_N` on `N` bytes only; that the three are defined
on every list, a byte that is not there being a free value and one past the `N`-th ignored, is a DESIGN CHOICE (log
entry 29). -/
def pack1 (l : List Byte) : BitVec 8 := byteAt l 0

/-- `pack_2` (R200), the inverse of `bytes2`; on lists of other lengths as `pack1` (log entry 29). -/
def pack2 (order : ByteOrder) (l : List Byte) : BitVec 16 :=
  match order with
  | .be => concat8 (byteAt l 0) (byteAt l 1)
  | .le => concat8 (byteAt l 1) (byteAt l 0)

/-- `pack_4` (R200), the inverse of `bytes4`; on lists of other lengths as `pack1` (log entry 29). -/
def pack4 (order : ByteOrder) (l : List Byte) : BitVec 32 :=
  match order with
  | .be => concat16 (concat8 (byteAt l 0) (byteAt l 1)) (concat8 (byteAt l 2) (byteAt l 3))
  | .le => concat16 (concat8 (byteAt l 3) (byteAt l 2)) (concat8 (byteAt l 1) (byteAt l 0))

end Sys2Proof.Machine
end

