-- ==== Sys2Proof/Machine/Flags.lean ====
section
/-! DEFINITION. The flags `STATUS` and `BUSY` and the step register: their codes, and what the completion of a command
writes (spec 10_state.md R26, R27; 30_encoding.md R98). There are no other flags. -/

namespace Sys2Proof.Machine

/-- The code of an error kind (R98, R210). -/
def errorCode : ErrorKind → BitVec 4
  | .outOfRange => 1
  | .hardwareProgramError => 2
  | .stateTransitionViolation => 3
  | .checksumMismatch => 4
  | .corrupt => 5
  | .timeout => 6
  | .illegalCommand => 7

/-- The 4-bit value of `STATUS` the host reads (R98). -/
def statusCode : Status → BitVec 4
  | .ok => 0
  | .error k => errorCode k

/-- The number of a `WRITE` step, 0 for `IDLE` (R27). -/
def stepNumber : StepReg → Nat
  | .idle => 0
  | .s1 => 1
  | .s2 => 2
  | .s3 => 3
  | .s4 => 4
  | .s5 => 5
  | .s6 => 6
  | .s7 => 7
  | .s8 => 8
  | .s9 => 9
  | .s10 => 10

/-- Completion of a command (R26, R27, R100): `STEP <- IDLE ; STATUS <- k ; BUSY <- 0`. -/
def State.complete (s : State) (k : Status) : State :=
  ((s.setStep .idle).setStatus k).setBusy false

end Sys2Proof.Machine
end

