-- ==== Sys2Proof/Machine/Ops.lean ====
section
/-! DEFINITION. The operations every instruction is written over: flash as memory (spec 20_memory.md R50, R65), the
Flash Access Layer calls (R58 to R69), acceptance and completion of a command (30_encoding.md R100), the abort path
(60_exceptions.md R218) and reset or power loss (70_reset_and_hazards.md R240 to R243). -/

namespace Sys2Proof.Machine

/-! ### Flash contents -/

/-- The erased value of a byte (R65). It is also what an address that nothing lists reads as: DESIGN CHOICE for flash at
first power-up (log entry 4). -/
def erasedByte : Byte := 0xFF

/-- `FLASH[a]`. -/
def Memory.read : Memory → Nat → Byte
  | [], _ => erasedByte
  | (b, w) :: rest, a => if a = b then w else Memory.read rest a

/-- A cell put into its place by address. -/
def Memory.insert (a : Nat) (v : Byte) : Memory → Memory
  | [] => [(a, v)]
  | (b, w) :: rest => if a < b then (a, v) :: (b, w) :: rest else (b, w) :: Memory.insert a v rest

/-- `FLASH[a] <- v`. Writing the erased value leaves no entry, so that equal memories are equal lists. -/
def Memory.write (m : Memory) (a : Nat) (v : Byte) : Memory :=
  let others := m.filter (fun c => c.1 ≠ a)
  if v = erasedByte then others else Memory.insert a v others

/-- The bytes `l` from address `a` on. -/
def Memory.writeBytes (m : Memory) (a : Nat) : List Byte → Memory
  | [] => m
  | b :: rest => Memory.writeBytes (m.write a b) (a + 1) rest

/-- The erased value in each of the `n` bytes from `a` on. -/
def Memory.erase (m : Memory) (a n : Nat) : Memory :=
  m.filter (fun c => c.1 < a ∨ a + n ≤ c.1)

/-- The canonical form: addresses strictly rising, and no entry that an unlisted address would read as. -/
def Memory.wf : Memory → Bool
  | [] => true
  | (a, v) :: rest =>
    decide (v ≠ erasedByte) && rest.all (fun c => decide (a < c.1)) && Memory.wf rest

/-! ### Draws -/

/-- The next draw (R17): the environment's next answer, or a free value where it has named none (log entry 7). -/
def State.nextDraw (s : State) : Draw := s.draws.headD (Config.freeDraw s.drawn)

/-- Byte `i` of what the next draw leaves behind; a free value where the draw does not name it (log entry 8). -/
def State.junkByte (s : State) (i : Nat) : Byte := s.nextDraw.junk.getD i (Config.freeByte s.drawn i)

/-- An element of `torn(v)` (R62): "every bit that is 1 in `v` is still 1", the others as the draw has them. -/
def State.tornHalf (s : State) (v : Half) : Half := concat8 (s.junkByte 0) (s.junkByte 1) ||| v

/-- The contents of a page whose erase did not succeed (R64): any bytes. -/
def State.tornPage (s : State) : List Byte := (List.range s.cfg.pageSize).map s.junkByte

/-! ### The course of a command -/

/-- How a part of a command ends: with a value, by `raise` (R15), by a call that never returns (R229), or by power
loss (R242). -/
inductive Res (α : Type) where
  | done (a : α) (s : State)
  | raised (k : ErrorKind) (s : State)
  | hung (s : State)
  | powerLost (s : State)
  deriving DecidableEq, Repr

/-- The next part runs only when this one is done: fail-fast (R15, R173). -/
def Res.andThen {α β : Type} (r : Res α) (k : α → State → Res β) : Res β :=
  match r with
  | .done a s => k a s
  | .raised e s => .raised e s
  | .hung s => .hung s
  | .powerLost s => .powerLost s

/-- `if … = fail: raise HardwareProgramError` (R212). -/
def Res.orProgramError (r : Res Bool) : Res Unit :=
  r.andThen fun ok s => if ok then .done () s else .raised .hardwareProgramError s

/-- The same part for each element, in order. -/
def Res.forEach {α : Type} (part : α → State → Res Unit) : List α → State → Res Unit
  | [], s => .done () s
  | x :: rest, s => (part x s).andThen fun _ s' => Res.forEach part rest s'

/-! ### Flash Access Layer calls -/

/-- `read_u8(a)` (R58). Outside the two pages, which R51 leaves to the platform and no instruction reaches, it reads what
the flash contents list there: DESIGN CHOICE (log entry 28). -/
def State.readU8 (s : State) (a : Nat) : Byte := s.flash.read a

/-- `read_u16(a)` (R59). At an odd `a`, which R57 leaves without meaning, and outside the two pages (R51), neither of
which an instruction reaches, it is the same two bytes: DESIGN CHOICE (log entry 28). -/
def State.readU16 (s : State) (a : Nat) : Half :=
  composeHalf s.cfg.hwOrder (s.readU8 a) (s.readU8 (a + 1))

/-- `read_u32(a)` (R60), at an odd `a` as `readU16`. No command calls it. -/
def State.readU32 (s : State) (a : Nat) : BitVec 32 :=
  match s.cfg.hwOrder with
  | .be => concat16 (s.readU16 a) (s.readU16 (a + 2))
  | .le => concat16 (s.readU16 (a + 2)) (s.readU16 a)

/-- The two bytes of halfword `v` in flash at `a` (R61). -/
def State.programHalf (s : State) (a : Nat) (v : Half) : State :=
  s.setFlash ((s.flash.write a (loAddrByte s.cfg.hwOrder v)).write (a + 1) (hiAddrByte s.cfg.hwOrder v))

/-- A mutating call whose completion never comes (R61, R228, R229): `Timeout` under a finite budget, the operation
being "considered over"; under an infinite one the call never returns and `FBUSY` stays 1. -/
def noCompletion {α : Type} (s : State) : Res α :=
  match s.cfg.waitBudget with
  | .finite => .raised .timeout s
  | .infinite => .hung (s.setFbusy true)

/-- `write_u16(a, v)` (R61), `true` for `ok`. After `done_ok` the read-back holds by construction
(`State.readU16_programHalf_self`). `FBUSY` is 1 only while the call runs, so it is seen only where the call never
returns. At an odd `a`, which R57 leaves without meaning, and outside the two pages (R51), neither of which an instruction
reaches, it programs the bytes at `a` and `a + 1` all the same: DESIGN CHOICE (log entry 28). -/
def writeU16 (a : Nat) (v : Half) (s : State) : Res Bool :=
  if s.lock = .locked then .done false s
  else if s.readU16 a ≠ 0xFFFF then .done false s
  else match s.nextDraw.kind with
    | .doneOk => .done true (s.popDraw.programHalf a v)
    | .doneErr => .done false (s.popDraw.programHalf a (s.tornHalf v))
    | .noCompletion => noCompletion (s.popDraw.programHalf a (s.tornHalf v))
    | .cutBefore => .powerLost s.popDraw
    | .cutDuring => .powerLost (s.popDraw.programHalf a (s.tornHalf v))

/-- Any contents in the page at `a` (R64). -/
def State.tearPage (s : State) (a : Nat) : State :=
  s.popDraw.setFlash (s.flash.writeBytes a s.tornPage)

/-- `erase_page(a)` (R63), `true` for `ok`. It does not read `LOCK`. At an `a` that is no page's base, which no instruction
reaches (R51), it is the `F` bytes from `a`: DESIGN CHOICE (log entry 28). -/
def erasePage (a : Nat) (s : State) : Res Bool :=
  match s.nextDraw.kind with
  | .doneOk => .done true (s.popDraw.setFlash (s.flash.erase a s.cfg.pageSize))
  | .doneErr => .done false (s.tearPage a)
  | .noCompletion => noCompletion (s.tearPage a)
  | .cutBefore => .powerLost s.popDraw
  | .cutDuring => .powerLost (s.tearPage a)

/-- `unlock()` (R66): the lock state it returns. Its draw is `ok` for `doneOk`, `fail` for `doneErr` and
`noCompletion`; power loss leaves flash untouched (R243). -/
def unlockFlash (s : State) : Res Lock :=
  match s.nextDraw.kind with
  | .doneOk => .done .unlocked (s.popDraw.setLock .unlocked)
  | .doneErr => .done .locked s.popDraw
  | .noCompletion => .done .locked s.popDraw
  | .cutBefore => .powerLost s.popDraw
  | .cutDuring => .powerLost s.popDraw

/-- `lock()` (R67): it "never fails". -/
def State.lockFlash (s : State) : State := s.setLock .locked

/-! ### Taking an exception -/

/-- The abort path (R218), the block's exception entry: `lock()` if the command is `WRITE` and the unlock of step 2 was
attempted, then `STEP <- IDLE ; STATUS <- k ; BUSY <- 0`. Nothing is saved, and there is no return instruction: "control
returns to the host with the status" (R222). -/
def State.abort (s : State) (k : ErrorKind) : State :=
  (if s.cmd = 0x03 ∧ 2 ≤ stepNumber s.step then s.lockFlash else s).complete (.error k)

/-- Reset and power loss, one event (R240, R242, R244): every volatile register takes its value of R40, flash keeps
what it holds; configuration and what the outside has yet to deliver are not the block's to lose. -/
def State.powerCycle (s : State) : State :=
  { State.reset with
    cfg := s.cfg
    flash := s.flash
    inputs := s.inputs
    draws := s.draws
    drawn := s.drawn }

/-- The reset delivered next is taken. -/
def State.takeReset (s : State) : State := (s.setInputs s.inputs.tail).powerCycle

/-- Reset is raised inside the command that runs, past its last mutating call (R240). -/
def State.resetInside (s : State) : Bool := decide (s.inputs.head? = some .resetInside)

/-- The end of a command in `s`: `t`, unless reset is raised before it, which ends the command "without the abort path:
no `lock()` call, no `STATUS` write by the command" (R240). -/
def State.endIn (s t : State) : State := if s.resetInside then s.takeReset else t

/-! ### A command from acceptance to completion -/

/-- A step's answer. -/
abbrev Answer := Host.Outcome State Fault Refusal

/-- Nothing has a meaning under a configuration that breaks a constraint of R7 or R8: "the model gives it no meaning"
(R8; log entry 15). -/
def whenLegal (s : State) (answer : Answer) : Answer :=
  if legalConfig s.cfg then answer else .refused .illegalConfiguration

/-- Why an instruction presented now has no meaning, if it has none (R8, R100, R232). -/
def State.refusal (s : State) : Option Refusal :=
  if legalConfig s.cfg then
    if s.busy then some .commandWhileBusy else none
  else some .illegalConfiguration

/-- Acceptance of a host command (R100): `CMD` is latched and `BUSY <- 1`. `STEP` is `IDLE` until `WRITE` sets it
(R172), and "not defined" during any other command (R27): a free value (log entry 12). -/
def State.accept (s : State) (cmd : Byte) : State :=
  ((s.setCmd cmd).setBusy true).setStep (if cmd = 0x03 then .idle else Config.freeStep s.drawn)

/-- The state a host command leaves: completed or aborted unless reset is raised before that, hung with `BUSY` still 1,
or reset by power loss at a call. -/
def Res.settle : Res Unit → State
  | .done _ s => s.endIn (s.complete .ok)
  | .raised k s => s.endIn (s.abort k)
  | .hung s => s
  | .powerLost s => s.powerCycle

/-- A host command: accepted, its operands latched, run to its end (R100, R150). -/
def hostCommand (cmd : Byte) (latch : State → State) (body : State → Res Unit) (s : State) : Answer :=
  match s.refusal with
  | some r => .refused r
  | none => .next (body (latch (s.accept cmd))).settle

/-- The state a micro-operation presented alone leaves: its answer in `ures`. It "writes no flag" (R120, R140), so a
raised kind is an answer too. Where its call never returns the block stays busy (log entry 13). -/
def Res.settleMicro : Res MicroResult → State
  | .done r s => s.endIn (s.setUres r)
  | .raised k s => s.endIn (s.setUres (.raised k))
  | .hung s => s.setBusy true
  | .powerLost s => s.powerCycle

/-- A micro-operation presented alone on the ubus; `body` is absent where an operand is outside R104. -/
def microOperation (body : Option (State → Res MicroResult)) (s : State) : Answer :=
  match s.refusal with
  | some r => .refused r
  | none =>
    match body with
    | some run => .next (run s).settleMicro
    | none => .refused .operandOutOfDomain

/-- A micro-operation with a `PAGE` operand. -/
def onPage (page : Designator) (run : Page → State → Res MicroResult) : Option (State → Res MicroResult) :=
  (pageOf page).map run

end Sys2Proof.Machine
end

