-- ==== Sys2Proof/Machine/Read.lean ====
section
/-! DEFINITION. READ (spec 42_arbiter_init_read_erase.md R158 to R160). -/

namespace Sys2Proof.Machine

/-- The `LEN` payload bytes from offset `ADDR` of a page (R103, R158). -/
def State.payloadBytes (s : State) (p : Page) (addr len : Nat) : List Byte :=
  (List.range len).map fun i => s.readU8 (base s.cfg p + addr + i)

/-- `READ` on the latched operands (R158). "no partial results on failure": both tests come before the first read. -/
def readBody (s : State) : Res Unit :=
  match pageOf s.active with
  | none => .raised .outOfRange s
  | some p =>
    if s.addr + s.len < payloadSize s.cfg then .done () (s.setRdata (s.payloadBytes p s.addr s.len))
    else .raised .outOfRange s

/-- The `READ` command with its operands. -/
def readCommand (addr len : Nat) (s : State) : Answer :=
  hostCommand 0x02 (fun s => s.setOperands addr len) readBody s

/-- `READ addr, n` (R158). -/
def execRead (addr len : Nat) (s : State) : Answer := readCommand addr len s

end Sys2Proof.Machine
end

