-- ==== Sys2Proof/Machine/Checksum.lean ====
section
/-! DEFINITION. The 16-bit additive checksum accumulator (spec 41_checksum.md): CSUM_COMPUTE, CSUM_STORED,
CSUM_INTACT. -/

namespace Sys2Proof.Machine

/-- The value of `ACC` after the first `n` bytes of the loop of R141, from address `a` on. -/
def State.sumBytes (s : State) (a n : Nat) : Half :=
  (List.range n).foldl (fun acc i => acc + (s.readU8 (a + i)).setWidth 16) 0

/-- `CSUM_COMPUTE(page)` (R141): "additive sum, no carry propagation beyond 16 bits, over exactly `P` payload bytes". -/
def State.csumCompute (s : State) (p : Page) : Half := s.sumBytes (base s.cfg p) (payloadSize s.cfg)

/-- What `CSUM_COMPUTE` writes: `ACC` holds the sum (R141). -/
def State.loadAcc (s : State) (p : Page) : State := s.setAcc (s.csumCompute p)

/-- `CSUM_STORED(page)` (R142). -/
def State.csumStored (s : State) (p : Page) : Half := s.readU16 (checksumAddr s.cfg p)

/-- `CSUM_INTACT(page)` (R143): equal means intact. -/
def State.csumIntact (s : State) (p : Page) : Bool := decide (s.csumStored p = s.csumCompute p)

/-- `CSUM_COMPUTE page` (R141). -/
def execCsumCompute (page : Designator) (s : State) : Answer :=
  microOperation (onPage page fun p s => .done (.half (s.csumCompute p)) (s.loadAcc p)) s

/-- `CSUM_STORED page` (R142). -/
def execCsumStored (page : Designator) (s : State) : Answer :=
  microOperation (onPage page fun p s => .done (.half (s.csumStored p)) s) s

/-- `CSUM_INTACT page` (R143). Its `CSUM_COMPUTE` leaves the sum in `ACC`. -/
def execCsumIntact (page : Designator) (s : State) : Answer :=
  microOperation (onPage page fun p s => .done (.bit (s.csumIntact p)) (s.loadAcc p)) s

end Sys2Proof.Machine
end

