-- ==== Sys2Proof/Machine/Codec.lean ====
section
/-! DEFINITION. The page state FSM validator (spec 40_page_state_codec.md): DECODE_STATE, ADVANCE_STATE, SET_STATE. -/

namespace Sys2Proof.Machine

/-! ### DECODE_STATE -/

/-- `DECODE_STATE(raw)` (R121). -/
def decodeStateWord (raw : StateWord) : PageState :=
  if raw = 0xFFFF_FFFF_FFFF_FFFF then .erased
  else if raw = 0x0000_FFFF_FFFF_FFFF then .write
  else if raw = 0x0000_0000_FFFF_FFFF then .valid
  else if raw = 0x0000_0000_0000_FFFF then .copy
  else if raw = 0x0000_0000_0000_0000 then .invalid
  else .corrupt

/-- `DECODE_STATE raw` (R121). -/
def execDecodeState (raw : StateWord) (s : State) : Answer :=
  microOperation (some fun s => .done (.state (decodeStateWord raw)) s) s

/-! ### ADVANCE_STATE -/

/-- `{f0, f1, f2, f3}` of a page, field 0 most significant (R55, R124). -/
def State.stateWord (s : State) (p : Page) : StateWord :=
  concat32
    (concat16 (s.readU16 (fieldAddr s.cfg p 0)) (s.readU16 (fieldAddr s.cfg p 1)))
    (concat16 (s.readU16 (fieldAddr s.cfg p 2)) (s.readU16 (fieldAddr s.cfg p 3)))

/-- The state a page decodes to: the value `ADVANCE_STATE` returns (R124). -/
def State.pageState (s : State) (p : Page) : PageState := decodeStateWord (s.stateWord p)

/-- What `ADVANCE_STATE` writes: `SREG <- {f0, f1, f2, f3}` (R124). -/
def State.loadSreg (s : State) (p : Page) : State := s.setSreg (s.stateWord p)

/-- `ADVANCE_STATE page` (R124). -/
def execAdvanceState (page : Designator) (s : State) : Answer :=
  microOperation (onPage page fun p s => .done (.state (s.pageState p)) (s.loadSreg p)) s

/-! ### SET_STATE -/

/-- The turn of field `k` in `SET_STATE` (R126). -/
def setField (p : Page) (target : PageState) (k : Nat) (s : State) : Res Unit :=
  if targetField target k = 0xFFFF then
    if s.readU16 (fieldAddr s.cfg p k) ≠ 0xFFFF then .raised .stateTransitionViolation s else .done () s
  else if s.readU16 (fieldAddr s.cfg p k) ≠ 0x0000 then
    (writeU16 (fieldAddr s.cfg p k) 0x0000 s).orProgramError
  else .done () s

/-- `SET_STATE(page, target)` (R126): one pass over the fields, most significant first. -/
def setPageState (p : Page) (target : PageState) (s : State) : Res Unit :=
  Res.forEach (setField p target) [0, 1, 2, 3] s

/-- `SET_STATE page, target` (R126) presented alone. -/
def execSetState (page : Designator) (target : PageState) (s : State) : Answer :=
  microOperation
    (if targetOperandOk target then
      onPage page fun p s => (setPageState p target s).andThen fun _ s => .done .ok s
    else none) s

end Sys2Proof.Machine
end

