-- ==== Sys2Proof/Machine/Write.lean ====
section
/-! DEFINITION. WRITE, the copy-on-write swap protocol (spec 43_arbiter_write.md R170 to R193): one definition a step. -/

namespace Sys2Proof.Machine

/-- Step 1 (R176): erase the inactive page, while flash is still locked. -/
def writeStep1 (b : Page) (s : State) : Res Unit :=
  (erasePage (base s.cfg b) (s.setStep .s1)).orProgramError

/-- Step 2 (R177): unlock; "anything but `UNLOCKED` raises `HardwareProgramError`". -/
def writeStep2 (s : State) : Res Unit :=
  (unlockFlash (s.setStep .s2)).andThen fun l s =>
    if l = .unlocked then .done () s else .raised .hardwareProgramError s

/-- Step 3 (R178): mark the active page COPY. -/
def writeStep3 (a : Page) (s : State) : Res Unit := setPageState a .copy (s.setStep .s3)

/-- Step 4 (R179): mark the inactive page WRITE. -/
def writeStep4 (b : Page) (s : State) : Res Unit := setPageState b .write (s.setStep .s4)

/-- `merged(o)` (R181): the caller's byte inside `[ADDR, ADDR + LEN)`, else the active page's. `WDATA` is `LEN` bytes
(R99), so that the byte is there. -/
def State.merged (s : State) (a : Page) (o : Nat) : Byte :=
  if s.addr ≤ o ∧ o < s.addr + s.len then byteAt s.wdata (o - s.addr)
  else s.readU8 (base s.cfg a + o)

/-- The halfword for position `off` (R181). -/
def State.mergedHalf (s : State) (a : Page) (off : Nat) : Half :=
  composeHalf s.cfg.hwOrder (s.merged a off) (s.merged a (off + 1))

/-- One halfword position of step 5 (R180): programmed only if it differs from what the inactive page holds. -/
def streamHalf (a b : Page) (off : Nat) (s : State) : Res Unit :=
  if s.readU16 (base s.cfg b + off) ≠ s.mergedHalf a off then
    (writeU16 (base s.cfg b + off) (s.mergedHalf a off) s).orProgramError
  else .done () s

/-- The halfword positions `0, 2, …, P - 2` (R180). -/
def halfOffsets (c : Config) : List Nat := (List.range (payloadSize c / 2)).map (2 * ·)

/-- Step 5 (R180): stream the merged payload into the inactive page. -/
def writeStep5 (a b : Page) (s : State) : Res Unit :=
  Res.forEach (streamHalf a b) (halfOffsets s.cfg) (s.setStep .s5)

/-- Step 6 (R182): compute the checksum of the inactive page and store it, always. -/
def writeStep6 (b : Page) (s : State) : Res Unit :=
  (writeU16 (checksumAddr s.cfg b) (s.csumCompute b) ((s.setStep .s6).loadAcc b)).orProgramError

/-- Step 7 (R183): mark the inactive page VALID, the commit point. -/
def writeStep7 (b : Page) (s : State) : Res Unit := setPageState b .valid (s.setStep .s7)

/-- Step 8 (R184): mark the formerly active page INVALID. -/
def writeStep8 (a : Page) (s : State) : Res Unit := setPageState a .invalid (s.setStep .s8)

/-- Step 9 (R185): swap the designations. -/
def writeStep9 (a b : Page) (s : State) : Res Unit :=
  .done () ((s.setStep .s9).setDesignation (designatorOf b) (designatorOf a))

/-- Step 10 (R186): re-lock flash. -/
def writeStep10 (s : State) : Res Unit := .done () (s.setStep .s10).lockFlash

/-- The ten steps (R172), `a` the page active at the start and `b` the inactive one (R174), "each with fail-fast abort". -/
def writeSteps (a b : Page) (s : State) : Res Unit :=
  (writeStep1 b s).andThen fun _ s =>
  (writeStep2 s).andThen fun _ s =>
  (writeStep3 a s).andThen fun _ s =>
  (writeStep4 b s).andThen fun _ s =>
  (writeStep5 a b s).andThen fun _ s =>
  (writeStep6 b s).andThen fun _ s =>
  (writeStep7 b s).andThen fun _ s =>
  (writeStep8 a s).andThen fun _ s =>
  (writeStep9 a b s).andThen fun _ s =>
  writeStep10 s

/-- The precondition of R171, "identical to `read`". -/
def State.inRange (s : State) : Bool :=
  decide (s.active ≠ .none ∧ s.addr + s.len < payloadSize s.cfg)

/-- `WRITE` on the latched operands (R172). The case of an active page and no inactive one is the fault of
`writeCommand`. -/
def writeBody (s : State) : Res Unit :=
  match pageOf s.active, pageOf s.inactive with
  | some a, some b => if s.inRange then writeSteps a b s else .raised .outOfRange s
  | _, _ => .raised .outOfRange s

/-- The `WRITE` command with its operands. Where the precondition holds and `INACTIVE = NONE`, which no run reaches
(R23), base(NONE) would be evaluated (R14): a fault. -/
def writeCommand (addr len : Nat) (data : List Byte) (s : State) : Answer :=
  match s.refusal with
  | some r => .refused r
  | none =>
    if data.length ≠ len then .refused .writeDataLength
    else
      let t := ((s.accept 0x03).setOperands addr len).setWdata data
      if t.inRange ∧ t.inactive = .none then .fault .baseOfNone
      else .next (writeBody t).settle

/-- `WRITE addr, data, n` (R172). -/
def execWrite (addr len : Nat) (data : List Byte) (s : State) : Answer := writeCommand addr len data s

end Sys2Proof.Machine
end

