-- ==== Sys2Proof/Machine/Accessors.lean ====
section
/-! DEFINITION. The typed accessors (spec 44_typed_accessors.md R200 to R207): each the base command with `LEN` fixed.
The value of a typed read is `pack_N` of `RDATA`; it is kept nowhere else (R200: "no state"). It is the value the spec
speaks of only in a state that a typed read of its width has completed in with `OK`: of any other state it is a number
made of what `RDATA` holds there and of free values, DESIGN CHOICE (log entry 29). -/

namespace Sys2Proof.Machine

/-- `READ_8 addr` (R201). -/
def execRead8 (addr : Nat) (s : State) : Answer := readCommand addr 1 s

/-- `READ_16 addr` (R202). -/
def execRead16 (addr : Nat) (s : State) : Answer := readCommand addr 2 s

/-- `READ_32 addr` (R203). -/
def execRead32 (addr : Nat) (s : State) : Answer := readCommand addr 4 s

/-- `WRITE_8 addr, v` (R204). -/
def execWrite8 (addr : Nat) (v : BitVec 8) (s : State) : Answer := writeCommand addr 1 [v] s

/-- `WRITE_16 addr, v` (R205). -/
def execWrite16 (addr : Nat) (v : BitVec 16) (s : State) : Answer :=
  writeCommand addr 2 (bytes2 s.cfg.accOrder v) s

/-- `WRITE_32 addr, v` (R206). -/
def execWrite32 (addr : Nat) (v : BitVec 32) (s : State) : Answer :=
  writeCommand addr 4 (bytes4 s.cfg.accOrder v) s

/-- The value a `READ_8` that completed with `OK` returns (R201); in other states log entry 29. -/
def State.value8 (s : State) : BitVec 8 := pack1 s.rdata

/-- The value a `READ_16` that completed with `OK` returns (R202); in other states log entry 29. -/
def State.value16 (s : State) : BitVec 16 := pack2 s.cfg.accOrder s.rdata

/-- The value a `READ_32` that completed with `OK` returns (R203); in other states log entry 29. -/
def State.value32 (s : State) : BitVec 32 := pack4 s.cfg.accOrder s.rdata

end Sys2Proof.Machine
end

