-- ==== Sys2Proof/Machine/Init.lean ====
section
/-! DEFINITION. INIT (spec 42_arbiter_init_read_erase.md R151 to R157). -/

namespace Sys2Proof.Machine

/-- Selection (R152): VALID wins, then COPY, page 1 before page 2 (R156); `none` is the fresh store of R154. -/
def selectPage (s1 s2 : PageState) : Option Page :=
  if s1 = .valid then some .p1
  else if s2 = .valid then some .p2
  else if s1 = .copy then some .p1
  else if s2 = .copy then some .p2
  else none

/-- `ACTIVE <- c ; INACTIVE <- other(c)` (R153). -/
def State.designate (s : State) (c : Page) : State :=
  s.setDesignation (designatorOf c) (designatorOf (otherPage c))

/-- The integrity check of the chosen page (R153), after the designation. -/
def checkChosen (c : Page) (s : State) : Res Unit :=
  if s.csumIntact c then .done () (s.loadAcc c) else .raised .checksumMismatch (s.loadAcc c)

/-- The fresh store (R154, R155): the designation comes after the erase. -/
def freshStore (s : State) : Res Unit :=
  (erasePage (base s.cfg .p1) s).orProgramError.andThen fun _ s => .done () (s.designate .p1)

/-- `INIT` (R151). -/
def initBody (s : State) : Res Unit :=
  match selectPage (s.pageState .p1) (s.pageState .p2) with
  | some c => checkChosen c (((s.loadSreg .p1).loadSreg .p2).designate c)
  | none => freshStore ((s.loadSreg .p1).loadSreg .p2)

/-- `INIT` (R151): it ignores `ADDR`, `LEN` and `WDATA` (R99). -/
def execInit (s : State) : Answer := hostCommand 0x01 id initBody s

end Sys2Proof.Machine
end

