-- ==== Sys2Proof/Machine/MassErase.lean ====
section
/-! DEFINITION. MASS_ERASE (spec 42_arbiter_init_read_erase.md R162 to R165). -/

namespace Sys2Proof.Machine

/-- An erase's result "captured, not yet raised" (R162): `none` for ok, else the kind it stands for. A call that never
returns and power loss are no results. -/
def captureErase (r : Res Bool) : Res (Option ErrorKind) :=
  match r with
  | .done true s => .done none s
  | .done false s => .done (some .hardwareProgramError) s
  | .raised k s => .done (some k) s
  | .hung s => .hung s
  | .powerLost s => .powerLost s

/-- The status of the two results: page 1's failure wins over page 2's (R162, R163). -/
def raiseFirst (r1 r2 : Option ErrorKind) (s : State) : Res Unit :=
  match r1, r2 with
  | some k, _ => .raised k s
  | none, some k => .raised k s
  | none, none => .done () s

/-- `MASS_ERASE` (R162): page 1, then page 2 "whatever r1 is". -/
def massEraseBody (s : State) : Res Unit :=
  (captureErase (erasePage (base s.cfg .p1) s)).andThen fun r1 s1 =>
    (captureErase (erasePage (base s1.cfg .p2) s1)).andThen fun r2 s2 => raiseFirst r1 r2 s2

/-- `MASS_ERASE` (R162): it ignores `ADDR`, `LEN` and `WDATA` (R99). -/
def execMassErase (s : State) : Answer := hostCommand 0x04 id massEraseBody s

end Sys2Proof.Machine
end

