-- ==== Sys2Proof/Machine/Dispatch.lean ====
section
/-! DEFINITION. One arm per instruction of the opcode table. -/

namespace Sys2Proof.Machine

def exec (i : Instr) (s : State) : Host.Outcome State Fault Refusal :=
  match i with
  | .init => Sys2Proof.Machine.execInit s
  | .read addr len => Sys2Proof.Machine.execRead addr len s
  | .write addr len data => Sys2Proof.Machine.execWrite addr len data s
  | .massErase => Sys2Proof.Machine.execMassErase s
  | .decodeState raw => Sys2Proof.Machine.execDecodeState raw s
  | .advanceState page => Sys2Proof.Machine.execAdvanceState page s
  | .setState page target => Sys2Proof.Machine.execSetState page target s
  | .csumCompute page => Sys2Proof.Machine.execCsumCompute page s
  | .csumStored page => Sys2Proof.Machine.execCsumStored page s
  | .csumIntact page => Sys2Proof.Machine.execCsumIntact page s
  | .read8 addr => Sys2Proof.Machine.execRead8 addr s
  | .read16 addr => Sys2Proof.Machine.execRead16 addr s
  | .read32 addr => Sys2Proof.Machine.execRead32 addr s
  | .write8 addr v => Sys2Proof.Machine.execWrite8 addr v s
  | .write16 addr v => Sys2Proof.Machine.execWrite16 addr v s
  | .write32 addr v => Sys2Proof.Machine.execWrite32 addr v s

end Sys2Proof.Machine
end

