-- ==== Sys2Proof/Machine/Fetch.lean ====
section
/-! DEFINITION. Taking a frame from a port (spec 30_encoding.md R99, R100, R105): what is latched of it, and what a
frame that decodes to no instruction does. The block has no program counter (10_state.md R25). -/

namespace Sys2Proof.Machine

/-- The parts of an accepted host frame that are latched before its command runs (R100): `ADDR`, `LEN` and the `LEN`
bytes of `WDATA`, also where the command ignores them. `CMD` is latched by the command. A ubus frame latches nothing. -/
def State.latchFrame (s : State) : Frame → State
  | .host word data =>
    let len := frameLen s.cfg.addrWidth word
    (s.setOperands (frameAddr s.cfg.addrWidth word) len).setWdata (data.take len)
  | .ubus _ => s

/-- An illegal command (R105, R217): it "completes at once with `STATUS = IllegalCommand`" and changes nothing else, so
nothing of its frame is latched. -/
def State.illegalCommand (s : State) : State :=
  (s.setStatus (.error .illegalCommand)).setBusy false

/-- A frame that decodes to no instruction: an illegal command on the host port (R105), which completes unless reset is
raised before that (R240); without meaning on the ubus. -/
def rejectFrame (e : DecodeError) (s : State) : Answer :=
  match s.refusal with
  | some r => .refused r
  | none =>
    match e with
    | .illegalCommand _ => .next (s.endIn s.illegalCommand)
    | .notAMicroOperation _ => .refused .microFrameWithoutMeaning
    | .pageCode => .refused .microFrameWithoutMeaning
    | .targetCode => .refused .microFrameWithoutMeaning

/-- A frame placed where the step takes its next one. -/
def State.present (s : State) (f : Frame) : State := s.setInputs (.frame f :: s.inputs)

end Sys2Proof.Machine
end

