-- ==== Sys2Proof/Machine/Step.lean ====
section
/-! DEFINITION. One step: the next thing the outside delivers (spec 30_encoding.md R100; 70_reset_and_hazards.md R240).
A frame runs its command to its end. -/

namespace Sys2Proof.Machine

/-- One step, of a block whose configuration is legal (R8). With nothing delivered it waits: idle (R41), or hung until
reset (R229). A reset meant for the inside of a command finds one running only where that command hangs. -/
def step (s : State) : Host.Outcome State Fault Refusal :=
  whenLegal s <| match s.inputs with
  | [] => .next s
  | .reset :: _ => .next s.takeReset
  | .resetInside :: _ => .next s.takeReset
  | .frame f :: rest =>
    match decodeFrame s.cfg.addrWidth f with
    | .ok i => exec i ((s.setInputs rest).latchFrame f)
    | .error e => rejectFrame e (s.setInputs rest)

/-- `s` with the frame of an opcode-table word presented next. Class 1 and 2 words go onto the ubus, every other onto
the host port, a `WRITE` with `LEN` zero bytes. -/
def State.withFetchWord (s : State) (nbits w : Nat) : State :=
  s.present (tableFrame s.cfg.addrWidth nbits w)

end Sys2Proof.Machine
end

