-- ==== Sys2Proof/Safety.lean ====
section
/-! DEFINITION. The terms statements about the block are made in: when a command may run, what "absent hardware error"
means for its draws, parts of the flash, and the invariant of the machine (spec 10_state.md R23, R27, R28, R29, R32). -/

namespace Sys2Proof.Machine

/-- The block can take an instruction now and see it through: the configuration is legal (R8), no command runs (R100),
and no reset is raised inside the next one past its last mutating call (R240; log entry 9). -/
def State.ready (s : State) : Prop := legalConfig s.cfg = true ∧ s.busy = false ∧ s.resetInside = false

/-- The draw the `k`-th mutating call from now makes (R17, R69). -/
def State.drawAt (s : State) (k : Nat) : Draw := s.draws.getD k (Config.freeDraw (s.drawn + k))

/-- "Absent hardware error" (R69) and power loss, for the next `n` mutating calls. -/
def State.quiet (s : State) (n : Nat) : Prop := ∀ k < n, (s.drawAt k).kind = .doneOk

/-- The byte at an offset of a page (R52). -/
def State.pageByte (s : State) (p : Page) (o : Nat) : Byte := s.flash.read (base s.cfg p + o)

/-- An address of a page: one of the `F` bytes from its base (R51). -/
def inPage (c : Config) (p : Page) (a : Nat) : Prop := base c p ≤ a ∧ a < base c p + c.pageSize

/-- One of the eight bytes of a page's state word (R52). -/
def inStateWord (c : Config) (p : Page) (a : Nat) : Prop := fieldAddr c p 0 ≤ a ∧ a < fieldAddr c p 0 + 8

/-- The designators name the pages `a` (active) and the other one (R23). -/
def State.activeIs (s : State) (a : Page) : Prop :=
  s.active = designatorOf a ∧ s.inactive = designatorOf (otherPage a)

/-- Where a `WRITE` passes its precondition with `a` active (R171): the block is ready, the designators name the pages,
the data are the `LEN` bytes of the frame and the access is in range. -/
structure WriteAllowed (s : State) (a : Page) (addr len : Nat) (data : List Byte) : Prop where
  ready : s.ready
  designated : s.activeIs a
  dataLength : data.length = len
  inRange : addr + len < payloadSize s.cfg

/-- The byte at payload offset `o` after `data` is written at `addr` over what page `a` holds (R181). -/
def State.newByte (s : State) (a : Page) (addr : Nat) (data : List Byte) (o : Nat) : Byte :=
  if addr ≤ o ∧ o < addr + data.length then data.getD (o - addr) 0 else s.pageByte a o

/-- How many of the first `j` halfwords of that payload are not all ones: the ones step 5 programs (R180). -/
def State.halvesToProgram (s : State) (a : Page) (addr : Nat) (data : List Byte) (j : Nat) : Nat :=
  ((List.range j).filter fun k =>
    ¬ (s.newByte a addr data (2 * k) = 0xFF ∧ s.newByte a addr data (2 * k + 1) = 0xFF)).length

/-- `SET_STATE(page, COPY)` can succeed: field 3 is erased, and each of the others zero or erased (R126). -/
def State.markable (s : State) (p : Page) : Prop :=
  s.readU16 (fieldAddr s.cfg p 3) = 0xFFFF ∧
  ∀ k < 3, s.readU16 (fieldAddr s.cfg p k) = 0x0000 ∨ s.readU16 (fieldAddr s.cfg p k) = 0xFFFF

/-- The `k`-th mutating call from now meets power loss, before it begins or during it (R242; log entry 9). -/
def State.cutAt (s : State) (k : Nat) : Prop := (s.drawAt k).kind = .cutBefore ∨ (s.drawAt k).kind = .cutDuring

/-- The registers to which R40 gives a value hold it. -/
def State.registersReset (s : State) : Prop :=
  s.active = .none ∧ s.inactive = .none ∧ s.status = .ok ∧ s.busy = false ∧ s.step = .idle ∧ s.lock = .locked ∧
  s.fbusy = false

/-- The registers right after `WRITE addr, data, n` has latched its operands and completed with a status (R100, R26). -/
def State.afterWrite (s : State) (addr : Nat) (data : List Byte) (k : Status) : State :=
  { s with cmd := 0x03, addr := addr, len := data.length, wdata := data, status := k, busy := false, step := .idle }

/-- The forms of `WRITE`: the command and its typed accessors (R200). -/
def writeForm : Instr → Bool
  | .write _ _ _ => true
  | .write8 _ _ => true
  | .write16 _ _ => true
  | .write32 _ _ => true
  | .init => false
  | .read _ _ => false
  | .massErase => false
  | .decodeState _ => false
  | .advanceState _ => false
  | .setState _ _ => false
  | .csumCompute _ => false
  | .csumStored _ => false
  | .csumIntact _ => false
  | .read8 _ => false
  | .read16 _ => false
  | .read32 _ => false

/-- The forms of `READ`: the command and its typed accessors (R200). -/
def readForm : Instr → Bool
  | .read _ _ => true
  | .read8 _ => true
  | .read16 _ => true
  | .read32 _ => true
  | .init => false
  | .write _ _ _ => false
  | .massErase => false
  | .decodeState _ => false
  | .advanceState _ => false
  | .setState _ _ => false
  | .csumCompute _ => false
  | .csumStored _ => false
  | .csumIntact _ => false
  | .write8 _ _ => false
  | .write16 _ _ => false
  | .write32 _ _ => false

/-- The invariant every step keeps. -/
structure Inv (s : State) : Prop where
  /-- The pair invariant (R23). -/
  pair : (s.active = .none ∧ s.inactive = .none) ∨ (s.active = .page1 ∧ s.inactive = .page2) ∨
    (s.active = .page2 ∧ s.inactive = .page1)
  /-- "`STEP` is `IDLE` whenever `BUSY = 0`" (R27). -/
  stepIdle : s.busy = false → s.step = .idle
  /-- The lock invariant (R28): locked whenever no command runs. -/
  locked : s.busy = false → s.lock = .locked
  /-- Flash is in progress only inside a command (R29). -/
  flashIdle : s.fbusy = true → s.busy = true
  /-- Flash contents are in their canonical form. -/
  canonical : s.flash.wf = true
  /-- Only addresses of the two pages hold anything (R20, R51). -/
  inPages : ∀ c ∈ s.flash, inPage s.cfg .p1 c.1 ∨ inPage s.cfg .p2 c.1
  /-- `ADDR` fits its `AW` bits (R24). -/
  addrFits : s.addr < 2 ^ s.cfg.addrWidth
  /-- `LEN` fits its `AW` bits (R24). -/
  lenFits : s.len < 2 ^ s.cfg.addrWidth

end Sys2Proof.Machine
end

