-- ==== Sys2Proof/Certificates/Slice0/Obligations.lean ====
section
/-! DEFINITION. The statements about the block, each a proposition named after what it says. A state of the model is any
state: nothing is assumed of how it was reached but what a statement's premises say. -/

open Sys2Proof Sys2Proof.Machine

/-! ### Frames and the step -/

/-- Decode and encode agree on every well-formed instruction (R99, R101, R102); a typed accessor's frame decodes to the
base command it expands to (R109). -/
def Obligations.EncodedInstructionsDecodeBack : Prop :=
  ∀ (cfg : Config) (i : Instr), wellFormed cfg.addrWidth i = true →
    decodeFrame cfg.addrWidth (encode cfg i) = .ok (expand cfg i)

/-- Frame words of 95_test_vectors.md and micro-operation words written out from R102 decode to what they stand for. -/
def Obligations.SpecFramesDecodeAsWritten : Prop :=
  decodeFrame 32 (.host 0x000000000000000001 []) = .ok .init ∧
  decodeFrame 32 (.host 0x00000001000003F402 []) = .ok (.read 1012 1) ∧
  decodeFrame 32 (.host 0x000000020000000203 [0xA5, 0x5A]) = .ok (.write 2 2 [0xA5, 0x5A]) ∧
  decodeFrame 32 (.host 0x000000000000000004 []) = .ok .massErase ∧
  decodeFrame 32 (.host 0x000000000000000012 []) = .error (.illegalCommand 0x12) ∧
  decodeFrame 32 (.ubus 0x00000000FFFFFFFF10) = .ok (.decodeState 0x00000000FFFFFFFF) ∧
  decodeFrame 32 (.ubus 0x000000000000000E12) = .ok (.setState .page2 .copy) ∧
  decodeFrame 32 (.ubus 0x000000000000000121) = .ok (.csumStored .page1)

/-- A frame that decodes to an instruction is run by the step as that instruction, on the state with the frame taken
from the inputs and its operand parts latched (R100). -/
def Obligations.StepRunsTheDecodedFrame : Prop :=
  ∀ (s : State) (f : Frame) (rest : List Input) (i : Instr),
    s.inputs = .frame f :: rest → decodeFrame s.cfg.addrWidth f = .ok i →
    step s = exec i
      (match f with
        | .host word data =>
          { s with
            inputs := rest
            addr := frameAddr s.cfg.addrWidth word
            len := frameLen s.cfg.addrWidth word
            wdata := data.take (frameLen s.cfg.addrWidth word) }
        | .ubus _ => { s with inputs := rest })

/-- An illegal `CMD` on the host port completes at once with `IllegalCommand`; nothing but `STATUS` and `BUSY` changes,
so no draw is made and flash is as before (R217). Where reset is raised before it completes, see
`ResetClearsRegistersKeepsFlash`. -/
def Obligations.IllegalHostCommandSetsStatusOnly : Prop :=
  ∀ (s : State) (word : Nat) (data : List Byte) (rest : List Input),
    s.ready → s.inputs = .frame (.host word data) :: rest → rest.head? ≠ some .resetInside →
    frameCmd word ≠ 0x01 → frameCmd word ≠ 0x02 → frameCmd word ≠ 0x03 → frameCmd word ≠ 0x04 →
    step s = .next { s with inputs := rest, status := .error .illegalCommand, busy := false }

/-- While a command runs, every host command and every presented frame is refused (R100, R232). That a micro-operation
presented alone is refused then too is the model's choice (log entry 13), since the spec's arbiter issues its own while
`BUSY = 1`. -/
def Obligations.NothingRunsWhileBusy : Prop :=
  ∀ s : State, legalConfig s.cfg = true → s.busy = true →
    (∀ i : Instr, exec i s = .refused .commandWhileBusy) ∧
    (∀ (f : Frame) (rest : List Input), s.inputs = .frame f :: rest → step s = .refused .commandWhileBusy)

/-- A configuration that breaks a constraint of R7 or R8 gives nothing a meaning: every instruction and every step is
refused, whatever the state and the inputs (log entry 15). -/
def Obligations.IllegalConfigurationIsRefused : Prop :=
  ∀ s : State, legalConfig s.cfg = false →
    (∀ i : Instr, exec i s = .refused .illegalConfiguration) ∧ step s = .refused .illegalConfiguration

/-- With nothing delivered the block waits, idle or hung (R41, R229). -/
def Obligations.WaitsWhenNothingIsDelivered : Prop :=
  ∀ s : State, legalConfig s.cfg = true → s.inputs = [] → step s = .next s

/-! ### Flash Access Layer calls -/

/-- What `write_u16` does for each outcome (R61): it refuses when locked or not erased; on `done_ok` the read-back is
the value; on the two others what it leaves is in `torn` of the value, and every element of `torn` is left by some draw
(R62); no other byte changes. It is said of every address: that a call at an odd one, which R57 leaves without meaning,
or outside the two pages (R51) does the same is the model's choice; no instruction makes one (log entry 28). -/
def Obligations.ProgramHalfwordContract : Prop :=
  ∀ (s : State) (a : Nat) (v : Half),
    ((s.lock = .locked ∨ s.readU16 a ≠ 0xFFFF) → writeU16 a v s = .done false s) ∧
    (s.lock = .unlocked → s.readU16 a = 0xFFFF →
      (∃ t : State,
        (∀ b, b ≠ a → b ≠ a + 1 → t.flash.read b = s.flash.read b) ∧
        t = { s with flash := t.flash, draws := s.draws.tail, drawn := s.drawn + 1 } ∧
        ((s.drawAt 0).kind = .doneOk → writeU16 a v s = .done true t ∧ t.readU16 a = v) ∧
        ((s.drawAt 0).kind = .doneErr → writeU16 a v s = .done false t ∧ t.readU16 a &&& v = v) ∧
        ((s.drawAt 0).kind = .noCompletion → t.readU16 a &&& v = v ∧
          (s.cfg.waitBudget = .finite → writeU16 a v s = .raised .timeout t) ∧
          (s.cfg.waitBudget = .infinite → writeU16 a v s = .hung { t with fbusy := true }))) ∧
      (∀ x : Half, x &&& v = v → ∃ (junk : List Byte) (t : State), t.readU16 a = x ∧
        writeU16 a v { s with draws := ⟨.doneErr, junk⟩ :: s.draws } = .done false t ∧
        (s.cfg.waitBudget = .finite →
          writeU16 a v { s with draws := ⟨.noCompletion, junk⟩ :: s.draws } = .raised .timeout t) ∧
        (s.cfg.waitBudget = .infinite →
          writeU16 a v { s with draws := ⟨.noCompletion, junk⟩ :: s.draws } = .hung { t with fbusy := true })))

/-- What `erase_page` does for each outcome (R63): on success every byte of the page is `0xFF`, so that it decodes to
ERASED and its stored checksum is `0xFFFF`; otherwise it can leave any contents; `LOCK` is neither read nor written. -/
def Obligations.ErasePageContract : Prop :=
  ∀ (s : State) (p : Page), legalConfig s.cfg = true →
    (∃ t : State,
      (∀ b, ¬ inPage s.cfg p b → t.flash.read b = s.flash.read b) ∧
      t = { s with flash := t.flash, draws := s.draws.tail, drawn := s.drawn + 1 } ∧
      ((s.drawAt 0).kind = .doneOk →
        erasePage (base s.cfg p) s = .done true t ∧ (∀ o < s.cfg.pageSize, t.pageByte p o = 0xFF) ∧
        t.pageState p = .erased ∧ t.csumStored p = 0xFFFF) ∧
      ((s.drawAt 0).kind = .doneErr → erasePage (base s.cfg p) s = .done false t) ∧
      ((s.drawAt 0).kind = .noCompletion →
        (s.cfg.waitBudget = .finite → erasePage (base s.cfg p) s = .raised .timeout t) ∧
        (s.cfg.waitBudget = .infinite → erasePage (base s.cfg p) s = .hung { t with fbusy := true }))) ∧
    (∀ contents : Nat → Byte, ∃ (junk : List Byte) (t : State),
      (∀ o < s.cfg.pageSize, t.pageByte p o = contents o) ∧
      erasePage (base s.cfg p) { s with draws := ⟨.doneErr, junk⟩ :: s.draws } = .done false t ∧
      (s.cfg.waitBudget = .finite →
        erasePage (base s.cfg p) { s with draws := ⟨.noCompletion, junk⟩ :: s.draws } = .raised .timeout t) ∧
      (s.cfg.waitBudget = .infinite →
        erasePage (base s.cfg p) { s with draws := ⟨.noCompletion, junk⟩ :: s.draws } =
          .hung { t with fbusy := true }))

/-- `unlock()` either unlocks and returns `UNLOCKED`, or leaves `LOCK` as it was and returns `LOCKED`; nothing else
changes (R66). R66 draws `ok` or `fail`; that the draw `noCompletion` is `fail` here is the model's choice (log
entry 7). -/
def Obligations.UnlockContract : Prop :=
  ∀ s : State,
    ((s.drawAt 0).kind = .doneOk →
      unlockFlash s = .done .unlocked { s with lock := .unlocked, draws := s.draws.tail, drawn := s.drawn + 1 }) ∧
    ((s.drawAt 0).kind = .doneErr ∨ (s.drawAt 0).kind = .noCompletion →
      unlockFlash s = .done .locked { s with draws := s.draws.tail, drawn := s.drawn + 1 })

/-- Power loss at a call (R242, R243; the draws that carry it are the model's, log entry 9). A call that had not begun
has no effect. A program in progress, which is unlocked and of an erased halfword, leaves its halfword in `torn` of the
value; an erase in progress changes its own page only; an unlock in progress leaves flash untouched; erase and unlock
whatever `LOCK` is. That a program at an odd address, which R57 leaves without meaning, or outside the two pages (R51) is
no exception is the model's choice (log entry 28). -/
def Obligations.PowerLossInsideACallTearsItsTarget : Prop :=
  ∀ s : State,
    ((s.drawAt 0).kind = .cutBefore →
      (∀ (a : Nat) (v : Half), s.lock = .unlocked → s.readU16 a = 0xFFFF →
        writeU16 a v s = .powerLost { s with draws := s.draws.tail, drawn := s.drawn + 1 }) ∧
      (∀ p : Page, erasePage (base s.cfg p) s = .powerLost { s with draws := s.draws.tail, drawn := s.drawn + 1 }) ∧
      unlockFlash s = .powerLost { s with draws := s.draws.tail, drawn := s.drawn + 1 }) ∧
    ((s.drawAt 0).kind = .cutDuring →
      (∀ (a : Nat) (v : Half), s.lock = .unlocked → s.readU16 a = 0xFFFF →
        ∃ t : State, writeU16 a v s = .powerLost t ∧ t.readU16 a &&& v = v ∧
          ∀ b, b ≠ a → b ≠ a + 1 → t.flash.read b = s.flash.read b) ∧
      (∀ p : Page, ∃ t : State, erasePage (base s.cfg p) s = .powerLost t ∧
        ∀ b, ¬ inPage s.cfg p b → t.flash.read b = s.flash.read b) ∧
      (∃ t : State, unlockFlash s = .powerLost t ∧ t.flash = s.flash))

/-! ### The codec -/

/-- `DECODE_STATE` answers each of the five patterns with its state and every other word with Corrupt, and writes
nothing but its answer, which the model keeps in `ures` (log entry 13); its frame is `RAW` above code `0x10` (R121). -/
def Obligations.DecodeStateMatchesFivePatterns : Prop :=
  ∀ (s : State) (raw : StateWord), s.ready →
    decodeFrame s.cfg.addrWidth (.ubus (BitVec.ofNat 72 (0x10 + raw.toNat * 2 ^ 8))) = .ok (.decodeState raw) ∧
    ∃ p : PageState, exec (.decodeState raw) s = .next { s with ures := .state p } ∧
      (p = .erased ↔ raw = 0xFFFF_FFFF_FFFF_FFFF) ∧ (p = .write ↔ raw = 0x0000_FFFF_FFFF_FFFF) ∧
      (p = .valid ↔ raw = 0x0000_0000_FFFF_FFFF) ∧ (p = .copy ↔ raw = 0x0000_0000_0000_FFFF) ∧
      (p = .invalid ↔ raw = 0x0000_0000_0000_0000) ∧
      (p = .corrupt ↔ raw ≠ 0xFFFF_FFFF_FFFF_FFFF ∧ raw ≠ 0x0000_FFFF_FFFF_FFFF ∧
        raw ≠ 0x0000_0000_FFFF_FFFF ∧ raw ≠ 0x0000_0000_0000_FFFF ∧ raw ≠ 0x0000_0000_0000_0000)

/-- `ADVANCE_STATE` assembles the four halfwords at offsets `P + 2` to `P + 8`, first most significant, into `SREG` and
answers what they decode to; nothing else changes. Its frame is `PAGE` above code `0x11` (R124). -/
def Obligations.AdvanceStateReadsFourFields : Prop :=
  ∀ (s : State) (p : Page), s.ready →
    decodeFrame s.cfg.addrWidth (.ubus (BitVec.ofNat 72 (0x11 + (designatorOf p).code.toNat * 2 ^ 8))) =
      .ok (.advanceState (designatorOf p)) ∧
    ∃ w : StateWord,
      w.toNat =
        (s.readU16 (base s.cfg p + payloadSize s.cfg + 2)).toNat * 2 ^ 48 +
        (s.readU16 (base s.cfg p + payloadSize s.cfg + 4)).toNat * 2 ^ 32 +
        (s.readU16 (base s.cfg p + payloadSize s.cfg + 6)).toNat * 2 ^ 16 +
        (s.readU16 (base s.cfg p + payloadSize s.cfg + 8)).toNat ∧
      exec (.advanceState (designatorOf p)) s =
        .next { s with sreg := w, ures := .state (decodeStateWord w) }

/-- The state a page decodes to does not depend on `HW_ORDER`: canonical fields read the same in either order, and a
torn field is Corrupt under either (R125). -/
def Obligations.PageStateIgnoresHalfwordOrder : Prop :=
  ∀ (s : State) (p : Page) (order : ByteOrder), legalConfig s.cfg = true →
    ({ s with cfg := { s.cfg with hwOrder := order } } : State).pageState p = s.pageState p

/-- The table of R128: unlocked and absent hardware error, a target at or ahead of a canonical state is reached with one
program for each field between them, and a target behind it is a transition violation that changes nothing. -/
def Obligations.SetStateBetweenCanonicalStates : Prop :=
  ∀ (s : State) (p : Page) (current target : PageState), s.ready → s.lock = .unlocked →
    s.pageState p = current → current ≠ .corrupt → target ≠ .corrupt → s.quiet 4 →
    (stateNumber current ≤ stateNumber target →
      ∃ t : State, exec (.setState (designatorOf p) target) s = .next t ∧
        t.pageState p = target ∧
        (∀ b, ¬ inStateWord s.cfg p b → t.flash.read b = s.flash.read b) ∧
        t = { s with
              flash := t.flash
              ures := .ok
              draws := s.draws.drop (stateNumber target - stateNumber current)
              drawn := s.drawn + (stateNumber target - stateNumber current) }) ∧
    (stateNumber target < stateNumber current →
      exec (.setState (designatorOf p) target) s =
        .next { s with ures := .raised .stateTransitionViolation })

/-- Whatever the draws, `SET_STATE` answers a next state, changes no byte outside the page's state word, and only ever
clears bits (R33, R120). -/
def Obligations.SetStateOnlyClearsItsOwnFields : Prop :=
  ∀ (s : State) (p : Page) (target : PageState), s.ready → target ≠ .corrupt →
    ∃ t : State, exec (.setState (designatorOf p) target) s = .next t ∧
      (∀ b, ¬ inStateWord s.cfg p b → t.flash.read b = s.flash.read b) ∧
      (∀ b, t.flash.read b &&& s.flash.read b = t.flash.read b)

/-- A field that must become zero and is found torn, every field before it being zero already, makes `SET_STATE` raise
`HardwareProgramError`, whatever the draws and the lock, and nothing changes (R130). -/
def Obligations.SetStateTornFieldIsProgramError : Prop :=
  ∀ (s : State) (p : Page) (target : PageState) (k : Nat), s.ready → target ≠ .corrupt →
    k < stateNumber target → (∀ j < k, s.readU16 (fieldAddr s.cfg p j) = 0x0000) →
    s.readU16 (fieldAddr s.cfg p k) ≠ 0x0000 → s.readU16 (fieldAddr s.cfg p k) ≠ 0xFFFF →
    exec (.setState (designatorOf p) target) s = .next { s with ures := .raised .hardwareProgramError }

/-- `SET_STATE` while locked (R131), from a canonical state: with a field to write, the target being ahead, it raises
`HardwareProgramError`; with none it does what it does unlocked, which is ok for the same state and
`StateTransitionViolation` for one behind (R128). Nothing changes in any case. -/
def Obligations.SetStateUnderLock : Prop :=
  ∀ (s : State) (p : Page) (current target : PageState), s.ready → s.lock = .locked →
    s.pageState p = current → current ≠ .corrupt → target ≠ .corrupt →
    (stateNumber current < stateNumber target →
      exec (.setState (designatorOf p) target) s = .next { s with ures := .raised .hardwareProgramError }) ∧
    (current = target → exec (.setState (designatorOf p) target) s = .next { s with ures := .ok }) ∧
    (stateNumber target < stateNumber current →
      exec (.setState (designatorOf p) target) s = .next { s with ures := .raised .stateTransitionViolation })

/-! ### The checksum unit -/

/-- `CSUM_COMPUTE` answers, and leaves in `ACC`, the sum of the `P` payload bytes modulo 65536; nothing else changes.
Its frame is `PAGE` above code `0x20` (R141). -/
def Obligations.ChecksumIsSumModulo65536 : Prop :=
  ∀ (s : State) (p : Page), s.ready →
    decodeFrame s.cfg.addrWidth (.ubus (BitVec.ofNat 72 (0x20 + (designatorOf p).code.toNat * 2 ^ 8))) =
      .ok (.csumCompute (designatorOf p)) ∧
    ∃ v : Half,
      v.toNat = ((List.range (payloadSize s.cfg)).map fun o => (s.pageByte p o).toNat).sum % 65536 ∧
      exec (.csumCompute (designatorOf p)) s = .next { s with acc := v, ures := .half v }

/-- `CSUM_STORED` answers the halfword at offset `P` and writes nothing; on an erased page that is
`0xFFFF`. Its frame is `PAGE` above code `0x21` (R142). -/
def Obligations.StoredChecksumIsHalfwordAtP : Prop :=
  ∀ (s : State) (p : Page), s.ready →
    decodeFrame s.cfg.addrWidth (.ubus (BitVec.ofNat 72 (0x21 + (designatorOf p).code.toNat * 2 ^ 8))) =
      .ok (.csumStored (designatorOf p)) ∧
    ∃ v : Half,
      v.toNat =
        (match s.cfg.hwOrder with
          | .be => (s.pageByte p (payloadSize s.cfg)).toNat * 2 ^ 8 + (s.pageByte p (payloadSize s.cfg + 1)).toNat
          | .le => (s.pageByte p (payloadSize s.cfg)).toNat + (s.pageByte p (payloadSize s.cfg + 1)).toNat * 2 ^ 8) ∧
      exec (.csumStored (designatorOf p)) s = .next { s with ures := .half v } ∧
      ((∀ o < s.cfg.pageSize, s.pageByte p o = 0xFF) → v = 0xFFFF)

/-- `CSUM_INTACT` answers 1 exactly when what `CSUM_STORED` answers is what `CSUM_COMPUTE` answers (R143). Its frame
is `PAGE` above code `0x22`. That the sum it computed stays in `ACC` is the model's reading (R141, log entry 22). -/
def Obligations.IntactMeansStoredEqualsComputed : Prop :=
  ∀ (s : State) (p : Page), s.ready →
    decodeFrame s.cfg.addrWidth (.ubus (BitVec.ofNat 72 (0x22 + (designatorOf p).code.toNat * 2 ^ 8))) =
      .ok (.csumIntact (designatorOf p)) ∧
    ∃ (stored computed : Half) (b : Bool) (t u : State),
      exec (.csumStored (designatorOf p)) s = .next t ∧ t.ures = .half stored ∧
      exec (.csumCompute (designatorOf p)) s = .next u ∧ u.ures = .half computed ∧
      (b = true ↔ stored = computed) ∧
      exec (.csumIntact (designatorOf p)) s = .next { s with acc := computed, ures := .bit b }

/-- Flipping one payload bit of an intact page makes it not intact (R146). -/
def Obligations.PayloadBitFlipBreaksIntact : Prop :=
  ∀ (s : State) (p : Page) (o k : Nat), legalConfig s.cfg = true → o < payloadSize s.cfg → k < 8 →
    s.csumIntact p = true →
    ({ s with flash := s.flash.write (base s.cfg p + o) (s.pageByte p o ^^^ BitVec.twoPow 8 k) } : State).csumIntact p
      = false

/-- An erased page is intact under no legal configuration: its sum is `255 * P` modulo 65536 and its stored checksum
`0xFFFF` (R145). -/
def Obligations.ErasedPageIsNeverIntact : Prop :=
  ∀ (s : State) (p : Page), legalConfig s.cfg = true → (∀ o < s.cfg.pageSize, s.pageByte p o = 0xFF) →
    (s.csumCompute p).toNat = 255 * payloadSize s.cfg % 65536 ∧ s.csumStored p = 0xFFFF ∧
    s.csumIntact p = false

/-! ### INIT -/

/-- `INIT` with a VALID or COPY page (R152, R153, R156): VALID wins, then COPY, page 1 on a tie; the page is designated,
the status says whether it is intact, and no flash changes. `SREG` and `ACC` hold what the last codec and checksum
micro-operation left (log entry 22). -/
def Obligations.InitDesignatesChosenPage : Prop :=
  ∀ (s : State) (c : Page), s.ready →
    ((s.pageState .p1 = .valid ∧ c = .p1) ∨
     (s.pageState .p1 ≠ .valid ∧ s.pageState .p2 = .valid ∧ c = .p2) ∨
     (s.pageState .p1 = .copy ∧ s.pageState .p2 ≠ .valid ∧ c = .p1) ∨
     (s.pageState .p1 ≠ .valid ∧ s.pageState .p1 ≠ .copy ∧ s.pageState .p2 = .copy ∧ c = .p2)) →
    exec .init s =
      .next { s with
              cmd := 0x01
              active := designatorOf c
              inactive := designatorOf (otherPage c)
              sreg := s.stateWord .p2
              acc := s.csumCompute c
              status := if s.csumStored c = s.csumCompute c then .ok else .error .checksumMismatch
              step := .idle
              busy := false }

/-- `INIT` with no VALID or COPY page, absent hardware error (R154): page 1 is erased and designated, page 2 and every
other byte unchanged, and the status is `OK` although the page's checksum does not match. That `SREG`
keeps the last state word read is the model's reading (R124, log entry 22). -/
def Obligations.InitFreshStoreErasesPageOne : Prop :=
  ∀ s : State, s.ready → s.pageState .p1 ≠ .valid → s.pageState .p2 ≠ .valid →
    s.pageState .p1 ≠ .copy → s.pageState .p2 ≠ .copy → s.quiet 1 →
    ∃ t : State, exec .init s = .next t ∧
      (∀ o < s.cfg.pageSize, t.pageByte .p1 o = 0xFF) ∧
      (∀ b, ¬ inPage s.cfg .p1 b → t.flash.read b = s.flash.read b) ∧
      t.pageState .p1 = .erased ∧ t.csumStored .p1 = 0xFFFF ∧ t.csumIntact .p1 = false ∧
      t = { s with
            cmd := 0x01
            active := .page1
            inactive := .page2
            sreg := s.stateWord .p2
            status := .ok
            step := .idle
            busy := false
            flash := t.flash
            draws := s.draws.tail
            drawn := s.drawn + 1 }

/-- `INIT` whose fresh-path erase does not succeed (R155): `HardwareProgramError` or `Timeout`, the designators as they
were, and no byte outside page 1 changed. -/
def Obligations.InitFreshEraseFailureKeepsDesignation : Prop :=
  ∀ s : State, s.ready → s.pageState .p1 ≠ .valid → s.pageState .p2 ≠ .valid →
    s.pageState .p1 ≠ .copy → s.pageState .p2 ≠ .copy →
    ∃ t : State,
      (∀ b, ¬ inPage s.cfg .p1 b → t.flash.read b = s.flash.read b) ∧
      ((s.drawAt 0).kind = .doneErr →
        exec .init s = .next t ∧ t.status = .error .hardwareProgramError ∧
        t.active = s.active ∧ t.inactive = s.inactive ∧ t.busy = false) ∧
      ((s.drawAt 0).kind = .noCompletion → s.cfg.waitBudget = .finite →
        exec .init s = .next t ∧ t.status = .error .timeout ∧
        t.active = s.active ∧ t.inactive = s.inactive ∧ t.busy = false)

/-- `INIT` whose fresh-path erase never completes under an infinite wait budget (R229), or meets power loss (R242,
R243; log entry 9). Hung, it leaves `BUSY` and `FBUSY` 1, `STEP` as it may be (R27), and every register but `CMD` and
`SREG` (log entry 22) as before; cut, it leaves the reset values. No byte outside page 1 changes in either case, and
none at all if power is lost before the erase begins. -/
def Obligations.InitFreshEraseHangsOrIsCut : Prop :=
  ∀ s : State, s.ready → s.pageState .p1 ≠ .valid → s.pageState .p2 ≠ .valid →
    s.pageState .p1 ≠ .copy → s.pageState .p2 ≠ .copy →
    ((s.drawAt 0).kind = .noCompletion → s.cfg.waitBudget = .infinite →
      ∃ t : State, exec .init s = .next t ∧
        (∀ b, ¬ inPage s.cfg .p1 b → t.flash.read b = s.flash.read b) ∧
        t = { s with
              cmd := 0x01
              busy := true
              fbusy := true
              step := t.step
              sreg := s.stateWord .p2
              flash := t.flash
              draws := s.draws.tail
              drawn := s.drawn + 1 }) ∧
    (s.cutAt 0 →
      ∃ t : State, exec .init s = .next t ∧ t.registersReset ∧ t.drawn = s.drawn + 1 ∧
        (∀ b, ¬ inPage s.cfg .p1 b → t.flash.read b = s.flash.read b) ∧
        ((s.drawAt 0).kind = .cutBefore → t.flash = s.flash))

/-- Two `INIT`s in a row give the same designation and status, absent hardware error (R157). -/
def Obligations.InitTwiceAgrees : Prop :=
  ∀ s : State, s.ready → s.quiet 2 →
    ∃ t u : State, exec .init s = .next t ∧ exec .init t = .next u ∧
      u.active = t.active ∧ u.inactive = t.inactive ∧ u.status = t.status

/-! ### READ and its typed accessors -/

/-- `READ` (R158): with an active page and `ADDR + LEN < P`, the sum not wrapping, `RDATA` receives the `LEN` bytes from
the active page; otherwise `OutOfRange`, with `RDATA` as it was. Nothing else changes but the latched operands and the
completion. Its frame is `LEN`, `ADDR` and code `0x02`. -/
def Obligations.ReadCopiesPayloadOrFails : Prop :=
  ∀ (s : State) (addr len : Nat), s.ready →
    (addr < 2 ^ s.cfg.addrWidth → len < 2 ^ s.cfg.addrWidth →
      decodeFrame s.cfg.addrWidth (.host (0x02 + addr * 2 ^ 8 + len * 2 ^ (8 + s.cfg.addrWidth)) []) =
        .ok (.read addr len)) ∧
    (∀ p : Page, s.active = designatorOf p → addr + len < payloadSize s.cfg →
      exec (.read addr len) s =
        .next { s with
                cmd := 0x02
                addr := addr
                len := len
                rdata := (List.range len).map fun i => s.pageByte p (addr + i)
                status := .ok
                step := .idle
                busy := false }) ∧
    (s.active = .none ∨ payloadSize s.cfg ≤ addr + len →
      exec (.read addr len) s =
        .next { s with
                cmd := 0x02
                addr := addr
                len := len
                status := .error .outOfRange
                step := .idle
                busy := false })

/-- The typed reads (R201 to R203) are `READ` of 1, 2 and 4 bytes; in range their value is the bytes packed in
`ACC_ORDER`, out of range they complete with `OutOfRange`. -/
def Obligations.TypedReadsPackBytes : Prop :=
  ∀ (s : State) (addr : Nat), s.ready →
    exec (.read8 addr) s = exec (.read addr 1) s ∧
    exec (.read16 addr) s = exec (.read addr 2) s ∧
    exec (.read32 addr) s = exec (.read addr 4) s ∧
    (∀ p : Page, s.active = designatorOf p →
      (addr + 1 < payloadSize s.cfg →
        ∃ t : State, exec (.read8 addr) s = .next t ∧ t.status = .ok ∧ t.value8 = s.pageByte p addr) ∧
      (addr + 2 < payloadSize s.cfg →
        ∃ t : State, exec (.read16 addr) s = .next t ∧ t.status = .ok ∧
          t.value16.toNat =
            match s.cfg.accOrder with
            | .be => (s.pageByte p addr).toNat * 2 ^ 8 + (s.pageByte p (addr + 1)).toNat
            | .le => (s.pageByte p addr).toNat + (s.pageByte p (addr + 1)).toNat * 2 ^ 8) ∧
      (addr + 4 < payloadSize s.cfg →
        ∃ t : State, exec (.read32 addr) s = .next t ∧ t.status = .ok ∧
          t.value32.toNat =
            match s.cfg.accOrder with
            | .be => (s.pageByte p addr).toNat * 2 ^ 24 + (s.pageByte p (addr + 1)).toNat * 2 ^ 16 +
                (s.pageByte p (addr + 2)).toNat * 2 ^ 8 + (s.pageByte p (addr + 3)).toNat
            | .le => (s.pageByte p addr).toNat + (s.pageByte p (addr + 1)).toNat * 2 ^ 8 +
                (s.pageByte p (addr + 2)).toNat * 2 ^ 16 + (s.pageByte p (addr + 3)).toNat * 2 ^ 24)) ∧
    (payloadSize s.cfg ≤ addr + 1 →
      ∃ t : State, exec (.read8 addr) s = .next t ∧ t.status = .error .outOfRange ∧ t.rdata = s.rdata) ∧
    (payloadSize s.cfg ≤ addr + 2 →
      ∃ t : State, exec (.read16 addr) s = .next t ∧ t.status = .error .outOfRange ∧ t.rdata = s.rdata) ∧
    (payloadSize s.cfg ≤ addr + 4 →
      ∃ t : State, exec (.read32 addr) s = .next t ∧ t.status = .error .outOfRange ∧ t.rdata = s.rdata)

/-- Before `INIT` there is no active page, and every form of `READ` and every well-formed form of `WRITE` completes with
`OutOfRange`, touching neither flash nor `LOCK` nor `RDATA` (R244). -/
def Obligations.AccessBeforeInitIsOutOfRange : Prop :=
  ∀ (s : State) (i : Instr), s.ready → s.active = .none → wellFormed s.cfg.addrWidth i = true →
    (readForm i = true ∨ writeForm i = true) →
    ∃ t : State, exec i s = .next t ∧ t.status = .error .outOfRange ∧ t.busy = false ∧
      t.flash = s.flash ∧ t.lock = s.lock ∧ t.rdata = s.rdata ∧ t.drawn = s.drawn ∧ t.active = .none

/-! ### MASS_ERASE -/

/-- `MASS_ERASE` absent hardware error (R162): every byte of both pages is `0xFF`, both decode to ERASED, and the
designators stay. -/
def Obligations.MassEraseErasesBothPages : Prop :=
  ∀ s : State, s.ready → s.quiet 2 →
    ∃ t : State, exec .massErase s = .next t ∧
      (∀ (p : Page) (o : Nat), o < s.cfg.pageSize → t.pageByte p o = 0xFF) ∧
      (∀ b, ¬ inPage s.cfg .p1 b → ¬ inPage s.cfg .p2 b → t.flash.read b = s.flash.read b) ∧
      t.pageState .p1 = .erased ∧ t.pageState .p2 = .erased ∧
      t = { s with
            cmd := 0x04
            status := .ok
            step := .idle
            busy := false
            flash := t.flash
            draws := s.draws.drop 2
            drawn := s.drawn + 2 }

/-- `MASS_ERASE`, for every outcome of its two erases that neither hangs nor is power loss (R162): the second is
attempted whatever the first did; `Timeout` if page 1 timed out, or page 1 was erased and page 2 timed out; else
`HardwareProgramError` if either failed; else `OK`. Each page whose erase succeeded is all `0xFF`. Its frame is code
`0x04`. -/
def Obligations.MassEraseAttemptsBothReportsFirst : Prop :=
  ∀ s : State, s.ready →
    (∀ k < 2, ¬ s.cutAt k ∧ ((s.drawAt k).kind = .noCompletion → s.cfg.waitBudget = .finite)) →
    decodeFrame s.cfg.addrWidth (.host 0x04 []) = .ok .massErase ∧
    ∃ t : State, exec .massErase s = .next t ∧
      ((s.drawAt 0).kind = .doneOk → ∀ o < s.cfg.pageSize, t.pageByte .p1 o = 0xFF) ∧
      ((s.drawAt 1).kind = .doneOk → ∀ o < s.cfg.pageSize, t.pageByte .p2 o = 0xFF) ∧
      (∀ b, ¬ inPage s.cfg .p1 b → ¬ inPage s.cfg .p2 b → t.flash.read b = s.flash.read b) ∧
      t = { s with
            cmd := 0x04
            status :=
              if (s.drawAt 0).kind = .noCompletion ∨
                  ((s.drawAt 0).kind = .doneOk ∧ (s.drawAt 1).kind = .noCompletion) then .error .timeout
              else if (s.drawAt 0).kind = .doneOk ∧ (s.drawAt 1).kind = .doneOk then .ok
              else .error .hardwareProgramError
            step := .idle
            busy := false
            flash := t.flash
            draws := s.draws.drop 2
            drawn := s.drawn + 2 }

/-- `MASS_ERASE` with an erase that never completes under an infinite wait budget (R163, R229), or that meets power loss
(R242, R243; log entry 9). Hung, it leaves `BUSY` and `FBUSY` 1, `STEP` as it may be (R27), and every register but `CMD`
as before; the second erase is not attempted after a hang at the first. Cut, it leaves the reset values. No byte outside
the pages it reached changes, and a page erased before stays erased. -/
def Obligations.MassEraseHangsOrIsCut : Prop :=
  ∀ s : State, s.ready →
    ((s.drawAt 0).kind = .noCompletion → s.cfg.waitBudget = .infinite →
      ∃ t : State, exec .massErase s = .next t ∧
        (∀ b, ¬ inPage s.cfg .p1 b → t.flash.read b = s.flash.read b) ∧
        t = { s with
              cmd := 0x04
              busy := true
              fbusy := true
              step := t.step
              flash := t.flash
              draws := s.draws.tail
              drawn := s.drawn + 1 }) ∧
    ((s.drawAt 0).kind = .doneOk ∨ (s.drawAt 0).kind = .doneErr →
      (s.drawAt 1).kind = .noCompletion → s.cfg.waitBudget = .infinite →
      ∃ t : State, exec .massErase s = .next t ∧
        ((s.drawAt 0).kind = .doneOk → ∀ o < s.cfg.pageSize, t.pageByte .p1 o = 0xFF) ∧
        (∀ b, ¬ inPage s.cfg .p1 b → ¬ inPage s.cfg .p2 b → t.flash.read b = s.flash.read b) ∧
        t = { s with
              cmd := 0x04
              busy := true
              fbusy := true
              step := t.step
              flash := t.flash
              draws := s.draws.drop 2
              drawn := s.drawn + 2 }) ∧
    (s.cutAt 0 →
      ∃ t : State, exec .massErase s = .next t ∧ t.registersReset ∧ t.drawn = s.drawn + 1 ∧
        (∀ b, ¬ inPage s.cfg .p1 b → t.flash.read b = s.flash.read b) ∧
        ((s.drawAt 0).kind = .cutBefore → t.flash = s.flash)) ∧
    (¬ s.cutAt 0 → ((s.drawAt 0).kind = .noCompletion → s.cfg.waitBudget = .finite) → s.cutAt 1 →
      ∃ t : State, exec .massErase s = .next t ∧ t.registersReset ∧ t.drawn = s.drawn + 2 ∧
        ((s.drawAt 0).kind = .doneOk → ∀ o < s.cfg.pageSize, t.pageByte .p1 o = 0xFF) ∧
        (∀ b, ¬ inPage s.cfg .p1 b → ¬ inPage s.cfg .p2 b → t.flash.read b = s.flash.read b) ∧
        ((s.drawAt 1).kind = .cutBefore → ∀ b, ¬ inPage s.cfg .p1 b → t.flash.read b = s.flash.read b))

/-- `MASS_ERASE` then `INIT`, absent hardware error (R165): success, page 1 active, and every payload byte `0xFF`. -/
def Obligations.MassEraseThenInitIsFresh : Prop :=
  ∀ s : State, s.ready → s.quiet 3 →
    ∃ t u : State, exec .massErase s = .next t ∧ exec .init t = .next u ∧
      u.status = .ok ∧ u.activeIs .p1 ∧ ∀ o < payloadSize s.cfg, u.pageByte .p1 o = 0xFF

/-! ### WRITE and its typed accessors -/

/-- The precondition of `WRITE` (R171): with no active page, or `ADDR + LEN` at or above `P`, it completes with
`OutOfRange`; no draw is made, `LOCK` is untouched and no flash changes. -/
def Obligations.WriteOutOfRangeTouchesNothing : Prop :=
  ∀ (s : State) (addr len : Nat) (data : List Byte), s.ready → data.length = len →
    (s.active = .none ∨ payloadSize s.cfg ≤ addr + len) →
    exec (.write addr len data) s = .next (s.afterWrite addr data (.error .outOfRange))

/-- The typed writes are `WRITE` of 1, 2 and 4 bytes, the value's bytes in `ACC_ORDER` (R204 to R206). -/
def Obligations.TypedWritesAreWrites : Prop :=
  ∀ (s : State) (addr : Nat) (v8 : BitVec 8) (v16 : BitVec 16) (v32 : BitVec 32),
    exec (.write8 addr v8) s = exec (.write addr 1 [v8]) s ∧
    exec (.write16 addr v16) s = exec (.write addr 2
      (match s.cfg.accOrder with
        | .be => [BitVec.ofNat 8 (v16.toNat / 2 ^ 8), BitVec.ofNat 8 v16.toNat]
        | .le => [BitVec.ofNat 8 v16.toNat, BitVec.ofNat 8 (v16.toNat / 2 ^ 8)])) s ∧
    exec (.write32 addr v32) s = exec (.write addr 4
      (match s.cfg.accOrder with
        | .be => [BitVec.ofNat 8 (v32.toNat / 2 ^ 24), BitVec.ofNat 8 (v32.toNat / 2 ^ 16),
            BitVec.ofNat 8 (v32.toNat / 2 ^ 8), BitVec.ofNat 8 v32.toNat]
        | .le => [BitVec.ofNat 8 v32.toNat, BitVec.ofNat 8 (v32.toNat / 2 ^ 8),
            BitVec.ofNat 8 (v32.toNat / 2 ^ 16), BitVec.ofNat 8 (v32.toNat / 2 ^ 24)])) s

/-- A `WRITE` absent hardware error, from an active page that step 3 can mark: ERASED, WRITE, VALID, COPY, or Corrupt
with field 3 erased and no torn field (R172, R178, R181, R182, R190): the other page ends VALID and intact with the
merged payload, the old page INVALID with payload and checksum as they were, every byte outside the two pages
unchanged, the designations swapped, flash locked, status `OK`; `ACC` keeps the new checksum (log entry 22). -/
def Obligations.WriteMergesIntoOtherPage : Prop :=
  ∀ (s : State) (a : Page) (addr len : Nat) (data : List Byte), WriteAllowed s a addr len data →
    s.markable a → s.quiet (payloadSize s.cfg / 2 + 9) →
    ∃ t : State, exec (.write addr len data) s = .next t ∧
      (∀ o < payloadSize s.cfg, t.pageByte (otherPage a) o = s.newByte a addr data o) ∧
      t.pageState (otherPage a) = .valid ∧ t.csumIntact (otherPage a) = true ∧
      t.pageState a = .invalid ∧
      (∀ o < payloadSize s.cfg + 2, t.pageByte a o = s.pageByte a o) ∧
      (∀ b, ¬ inPage s.cfg .p1 b → ¬ inPage s.cfg .p2 b → t.flash.read b = s.flash.read b) ∧
      t = { s.afterWrite addr data .ok with
            active := designatorOf (otherPage a)
            inactive := designatorOf a
            lock := .locked
            acc := t.csumCompute (otherPage a)
            flash := t.flash
            draws := t.draws
            drawn := t.drawn }

/-- Round trip and merge preservation (R190): absent hardware error, `READ` of the same range returns the data, and
`READ` of any range that does not meet it returns what it returned before the `WRITE`. -/
def Obligations.WriteThenReadReturnsData : Prop :=
  ∀ (s : State) (a : Page) (addr len : Nat) (data : List Byte), WriteAllowed s a addr len data →
    s.pageState a ≠ .invalid → s.pageState a ≠ .corrupt → s.quiet (payloadSize s.cfg / 2 + 9) →
    ∃ t : State, exec (.write addr len data) s = .next t ∧ t.status = .ok ∧
      (∃ u : State, exec (.read addr len) t = .next u ∧ u.status = .ok ∧ u.rdata = data) ∧
      (∀ addr' len' : Nat, addr' + len' < payloadSize s.cfg → (addr' + len' ≤ addr ∨ addr + len ≤ addr') →
        ∃ u v : State, exec (.read addr' len') t = .next u ∧ exec (.read addr' len') s = .next v ∧
          u.status = .ok ∧ u.rdata = v.rdata)

/-- Each typed write in range completes `OK` absent hardware error, and the typed read of the same width at the same
address then returns the value, under either `ACC_ORDER` (R200). -/
def Obligations.TypedWriteThenReadRoundTrip : Prop :=
  ∀ (s : State) (a : Page) (addr : Nat), s.ready → s.activeIs a →
    s.pageState a ≠ .invalid → s.pageState a ≠ .corrupt → s.quiet (payloadSize s.cfg / 2 + 9) →
    (addr + 1 < payloadSize s.cfg → ∀ v : BitVec 8,
      ∃ t u : State, exec (.write8 addr v) s = .next t ∧ t.status = .ok ∧
        exec (.read8 addr) t = .next u ∧ u.status = .ok ∧ u.value8 = v) ∧
    (addr + 2 < payloadSize s.cfg → ∀ v : BitVec 16,
      ∃ t u : State, exec (.write16 addr v) s = .next t ∧ t.status = .ok ∧
        exec (.read16 addr) t = .next u ∧ u.status = .ok ∧ u.value16 = v) ∧
    (addr + 4 < payloadSize s.cfg → ∀ v : BitVec 32,
      ∃ t u : State, exec (.write32 addr v) s = .next t ∧ t.status = .ok ∧
        exec (.read32 addr) t = .next u ∧ u.status = .ok ∧ u.value32 = v)

/-- The number of mutating calls of one `WRITE` from a VALID page absent hardware error (R192), counted by the model's
draws (log entry 7): seven, and one for each merged halfword that is not all ones. -/
def Obligations.WriteCountsFlashOperations : Prop :=
  ∀ (s t : State) (a : Page) (addr len : Nat) (data : List Byte), WriteAllowed s a addr len data →
    s.pageState a = .valid → s.quiet (payloadSize s.cfg / 2 + 9) → exec (.write addr len data) s = .next t →
    t.drawn = s.drawn + 7 + s.halvesToProgram a addr data (payloadSize s.cfg / 2)

/-- Which calls one `WRITE` from a VALID page makes, and in which order (R176 to R184, R188, R192): what flash holds
when power is lost before call `n` (log entry 9), the calls before it having succeeded. Call 0 erases the other page, 1
unlocks, 2 marks the active page COPY, 3 marks the other WRITE; then one program for each merged halfword that is not
all ones, in ascending order; then the checksum, the VALID mark, and the INVALID mark. -/
def Obligations.WriteCallsReachFlashInOrder : Prop :=
  ∀ (s : State) (a : Page) (addr len n : Nat) (data : List Byte), WriteAllowed s a addr len data →
    s.pageState a = .valid → s.quiet n → (s.drawAt n).kind = .cutBefore →
    n < 7 + s.halvesToProgram a addr data (payloadSize s.cfg / 2) →
    ∃ t : State, exec (.write addr len data) s = .next t ∧ t.registersReset ∧ t.drawn = s.drawn + n + 1 ∧
      (n = 0 → t.flash = s.flash) ∧
      (0 < n →
        t.pageState a = (if n ≤ 2 then .valid else .copy) ∧
        t.pageState (otherPage a) =
          (if n ≤ 3 then .erased
            else if n ≤ 5 + s.halvesToProgram a addr data (payloadSize s.cfg / 2) then .write
            else .valid) ∧
        (∀ k < payloadSize s.cfg / 2,
          t.pageByte (otherPage a) (2 * k) =
            (if s.halvesToProgram a addr data k < n - 4 then s.newByte a addr data (2 * k) else 0xFF) ∧
          t.pageByte (otherPage a) (2 * k + 1) =
            (if s.halvesToProgram a addr data k < n - 4 then s.newByte a addr data (2 * k + 1) else 0xFF)) ∧
        t.csumStored (otherPage a) =
          (if n ≤ 4 + s.halvesToProgram a addr data (payloadSize s.cfg / 2) then 0xFFFF
            else t.csumCompute (otherPage a)) ∧
        (∀ o < payloadSize s.cfg + 2, t.pageByte a o = s.pageByte a o) ∧
        (∀ b, ¬ inPage s.cfg .p1 b → ¬ inPage s.cfg .p2 b → t.flash.read b = s.flash.read b))

/-- Whatever the draws, power loss and hang among them, a form of `WRITE` changes neither payload nor checksum of the
page that was active, and no byte outside the two pages (R170, R221). Power loss arrives with a call's draw by the
model's choice (log entry 9). -/
def Obligations.WriteNeverTouchesActivePayload : Prop :=
  ∀ (s t : State) (a : Page) (i : Instr), writeForm i = true → s.activeIs a → exec i s = .next t →
    (∀ o < payloadSize s.cfg + 2, t.pageByte a o = s.pageByte a o) ∧
    (∀ b, ¬ inPage s.cfg .p1 b → ¬ inPage s.cfg .p2 b → t.flash.read b = s.flash.read b)

/-- Every exit of a form of `WRITE`, whatever the draws, leaves flash locked if it was locked before (R28, R218);
power loss among them, which arrives with a draw by the model's choice (log entry 9). -/
def Obligations.WriteExitsLocked : Prop :=
  ∀ (s t : State) (i : Instr), writeForm i = true → s.lock = .locked → exec i s = .next t →
    t.busy = false → t.lock = .locked

/-- A form of `WRITE` that completes with a failure leaves the designators as they were, whatever the draws (R173). -/
def Obligations.FailedWriteKeepsDesignation : Prop :=
  ∀ (s t : State) (i : Instr), writeForm i = true → exec i s = .next t → t.status ≠ .ok →
    t.active = s.active ∧ t.inactive = s.inactive

/-- `WRITE` failing at step 1 or 2 (R176, R177, R187). A failed erase leaves `LOCK` and the active page as they were; a
failed unlock leaves flash locked, the inactive page erased and every other byte as it was. -/
def Obligations.WriteFailuresBeforeMarking : Prop :=
  ∀ (s : State) (a : Page) (addr len : Nat) (data : List Byte), WriteAllowed s a addr len data →
    ∃ t : State,
      ((s.drawAt 0).kind = .doneErr →
        exec (.write addr len data) s = .next t ∧ t.status = .error .hardwareProgramError ∧
        t.busy = false ∧ t.lock = s.lock ∧ t.activeIs a ∧
        ∀ b, ¬ inPage s.cfg (otherPage a) b → t.flash.read b = s.flash.read b) ∧
      ((s.drawAt 0).kind = .noCompletion → s.cfg.waitBudget = .finite →
        exec (.write addr len data) s = .next t ∧ t.status = .error .timeout ∧
        t.busy = false ∧ t.lock = s.lock ∧ t.activeIs a ∧
        ∀ b, ¬ inPage s.cfg (otherPage a) b → t.flash.read b = s.flash.read b) ∧
      ((s.drawAt 0).kind = .doneOk → (s.drawAt 1).kind = .doneErr →
        exec (.write addr len data) s = .next t ∧ t.status = .error .hardwareProgramError ∧
        t.busy = false ∧ t.lock = .locked ∧ t.activeIs a ∧
        (∀ o < s.cfg.pageSize, t.pageByte (otherPage a) o = 0xFF) ∧
        ∀ b, ¬ inPage s.cfg (otherPage a) b → t.flash.read b = s.flash.read b)

/-- `WRITE` with an INVALID active page, as after a failed step 8 (R178, R254): step 3 meets a field that must still be
all ones, and the command ends with `StateTransitionViolation`, flash locked, the inactive page erased, every other byte
and the designators as they were. -/
def Obligations.WriteFromRetiredPageIsViolation : Prop :=
  ∀ (s : State) (a : Page) (addr len : Nat) (data : List Byte), WriteAllowed s a addr len data →
    s.pageState a = .invalid → s.quiet 2 →
    ∃ t : State, exec (.write addr len data) s = .next t ∧
      (∀ o < s.cfg.pageSize, t.pageByte (otherPage a) o = 0xFF) ∧
      (∀ b, ¬ inPage s.cfg (otherPage a) b → t.flash.read b = s.flash.read b) ∧
      t = { s.afterWrite addr data (.error .stateTransitionViolation) with
            lock := .locked
            flash := t.flash
            draws := s.draws.drop 2
            drawn := s.drawn + 2 }

/-- A `WRITE` that a call other than the erase of step 1 and the program of step 3 fails, or times out (R187): from a
VALID and intact page it completes locked with the old designation and the failure's kind, and the
next `INIT` succeeds and shows either the whole old payload or the whole new one. -/
def Obligations.FailedWriteThenInitShowsOldOrNew : Prop :=
  ∀ (s t : State) (a : Page) (addr len n : Nat) (data : List Byte), WriteAllowed s a addr len data →
    s.pageState a = .valid → s.csumIntact a = true →
    s.cfg.waitBudget = .finite →
    n ≠ 0 → n ≠ 2 → s.quiet n → ((s.drawAt n).kind = .doneErr ∨ (s.drawAt n).kind = .noCompletion) →
    exec (.write addr len data) s = .next t → t.status ≠ .ok →
    t.activeIs a ∧ t.lock = .locked ∧ t.busy = false ∧
    (t.status = .error .hardwareProgramError ∨ t.status = .error .timeout) ∧
    ∃ u : State, exec .init t = .next u ∧ u.status = .ok ∧
      ((u.activeIs a ∧ ∀ o < payloadSize s.cfg, u.pageByte a o = s.pageByte a o) ∨
       (u.activeIs (otherPage a) ∧
        ∀ o < payloadSize s.cfg, u.pageByte (otherPage a) o = s.newByte a addr data o))

/-! ### Power loss -/

/-- Crash points (R188): with the active page VALID and intact, the other not VALID where power is lost before the erase
of step 1, and no hardware error, power lost
between any two calls of a `WRITE` (or never) leaves a store whose next `INIT` succeeds and shows either the whole old
payload on the old page or the whole new payload on the other. Power loss arrives with a call's draw by the model's
choice (log entry 9). -/
def Obligations.CrashBetweenCallsShowsOldOrNew : Prop :=
  ∀ (s : State) (a : Page) (addr len n : Nat) (data : List Byte), WriteAllowed s a addr len data →
    s.pageState a = .valid → s.csumIntact a = true → (n = 0 → s.pageState (otherPage a) ≠ .valid) →
    s.quiet n → (s.drawAt n).kind = .cutBefore →
    ∃ t u : State, exec (.write addr len data) s = .next t ∧ exec .init t = .next u ∧ u.status = .ok ∧
      ((u.activeIs a ∧ ∀ o < payloadSize s.cfg, u.pageByte a o = s.pageByte a o) ∨
       (u.activeIs (otherPage a) ∧
        ∀ o < payloadSize s.cfg, u.pageByte (otherPage a) o = s.newByte a addr data o))

/-- Crash points from the other starts of R188 (power loss as in log entry 9). From a COPY page that is intact the next
`INIT` succeeds and shows the old or the new payload. From an erased page, as on a fresh store, it shows all `0xFF` or
the new payload, if its own erase succeeds; where it finds that page marked COPY and the other not VALID, it reports
`ChecksumMismatch` although nothing is lost (R253). -/
def Obligations.CrashFromErasedOrCopyShowsOldOrNew : Prop :=
  ∀ (s : State) (a : Page) (addr len n : Nat) (data : List Byte), WriteAllowed s a addr len data →
    (n = 0 → s.pageState (otherPage a) ≠ .valid ∧ s.pageState (otherPage a) ≠ .copy) →
    s.quiet n → (s.drawAt n).kind = .cutBefore →
    (s.pageState a = .copy → s.csumIntact a = true →
      ∃ t u : State, exec (.write addr len data) s = .next t ∧ exec .init t = .next u ∧ u.status = .ok ∧
        ((u.activeIs a ∧ ∀ o < payloadSize s.cfg, u.pageByte a o = s.pageByte a o) ∨
         (u.activeIs (otherPage a) ∧
          ∀ o < payloadSize s.cfg, u.pageByte (otherPage a) o = s.newByte a addr data o))) ∧
    ((∀ o < s.cfg.pageSize, s.pageByte a o = 0xFF) → (s.drawAt (n + 1)).kind = .doneOk →
      ∃ (t u : State) (p : Page), exec (.write addr len data) s = .next t ∧ exec .init t = .next u ∧ u.activeIs p ∧
        ((∀ o < payloadSize s.cfg, u.pageByte p o = 0xFF) ∨
         (p = otherPage a ∧ ∀ o < payloadSize s.cfg, u.pageByte p o = s.newByte a addr data o)) ∧
        (u.status = .ok ∨ u.status = .error .checksumMismatch) ∧
        (t.pageState a = .copy → t.pageState (otherPage a) ≠ .valid →
          p = a ∧ u.status = .error .checksumMismatch))

/-- The same with power lost during a call, whatever the torn contents, if that call is neither the erase of step 1 nor
the program that marks the active page COPY in step 3 (R252, R259; log entry 9), whatever the other page held. -/
def Obligations.CrashDuringLaterCallsShowsOldOrNew : Prop :=
  ∀ (s : State) (a : Page) (addr len n : Nat) (data : List Byte), WriteAllowed s a addr len data →
    s.pageState a = .valid → s.csumIntact a = true →
    n ≠ 0 → n ≠ 2 → s.quiet n → (s.drawAt n).kind = .cutDuring →
    ∃ t u : State, exec (.write addr len data) s = .next t ∧ exec .init t = .next u ∧ u.status = .ok ∧
      ((u.activeIs a ∧ ∀ o < payloadSize s.cfg, u.pageByte a o = s.pageByte a o) ∨
       (u.activeIs (otherPage a) ∧
        ∀ o < payloadSize s.cfg, u.pageByte (otherPage a) o = s.newByte a addr data o))

/-- The unsafe window of R252, for either active page: power lost during the program of step 3 (log entry 9). The active
page is Corrupt exactly where the bytes left are torn, neither both zero nor both `0xFF`; and where it is, the next
`INIT`, absent hardware error, takes the fresh path, so that the store shows neither the old nor the new payload. An
active page 2 still holds the old payload, which the store no longer points at. -/
def Obligations.TornCopyMarkLosesTheStore : Prop :=
  ∀ (s : State) (a : Page) (addr len : Nat) (data : List Byte), WriteAllowed s a addr len data →
    s.pageState a = .valid → s.quiet 2 → (s.drawAt 2).kind = .cutDuring → (s.drawAt 3).kind = .doneOk →
    ∃ t : State, exec (.write addr len data) s = .next t ∧
      (∀ b0 b1 : Byte, (s.drawAt 2).junk = [b0, b1] →
        (t.pageState a = .corrupt ↔ ¬ (b0 = 0x00 ∧ b1 = 0x00) ∧ ¬ (b0 = 0xFF ∧ b1 = 0xFF))) ∧
      (t.pageState a = .corrupt →
        ∃ u : State, exec .init t = .next u ∧ u.status = .ok ∧ u.activeIs .p1 ∧
          (∀ o < payloadSize s.cfg, u.pageByte .p1 o = 0xFF) ∧
          (a = .p2 → ∀ o < payloadSize s.cfg, u.pageByte .p2 o = s.pageByte .p2 o))

/-- Reset and power loss between commands, while one hangs, or inside an illegal command (R40, R240, R244): the registers
take their reset values, flash keeps what it holds. What a command had latched or computed is left unspecified by R40, so
nothing is said of it. -/
def Obligations.ResetClearsRegistersKeepsFlash : Prop :=
  ∀ (s : State) (rest : List Input), legalConfig s.cfg = true →
    (s.inputs = .reset :: rest ∨ s.inputs = .resetInside :: rest ∨
     (s.busy = false ∧ ∃ (word : Nat) (data : List Byte),
        s.inputs = .frame (.host word data) :: .resetInside :: rest ∧
        frameCmd word ≠ 0x01 ∧ frameCmd word ≠ 0x02 ∧ frameCmd word ≠ 0x03 ∧ frameCmd word ≠ 0x04)) →
    ∃ t : State, step s = .next t ∧ t.registersReset ∧
      t.flash = s.flash ∧ t.cfg = s.cfg ∧ t.inputs = rest ∧ t.drawn = s.drawn

/-- Reset inside a command that runs, past its last mutating call, so at any moment of one that makes none (R240, R242,
R244): whatever the command would have ended with, the registers take their reset values instead, `STATUS` and `ACTIVE`
among them, and flash holds what the calls left. Where the command loses power at a call (log entry 9) or hangs, the
reset is still to come. -/
def Obligations.ResetInsideACommandKeepsOnlyFlash : Prop :=
  ∀ (s t : State) (i : Instr) (rest : List Input), exec i { s with inputs := [] } = .next t →
    ∃ u : State, exec i { s with inputs := .resetInside :: rest } = .next u ∧
      u.flash = t.flash ∧ u.cfg = t.cfg ∧ u.drawn = t.drawn ∧
      (t.busy = true → u = { t with inputs := .resetInside :: rest }) ∧
      (t.busy = false → u.registersReset ∧
        (u.inputs = rest ∨
         (u.inputs = .resetInside :: rest ∧ ∃ k : Nat, t.drawn = s.drawn + k + 1 ∧ s.cutAt k)))

/-- The state right after reset (R40, R41): idle, locked, no page designated, nothing in progress. Its configuration and
flash contents are the model's choice (log entries 2 and 4): it is legal and lists no byte. -/
def Obligations.ResetStateIsIdleAndLocked : Prop :=
  State.reset.active = .none ∧ State.reset.inactive = .none ∧ State.reset.status = .ok ∧
  State.reset.busy = false ∧ State.reset.step = .idle ∧ State.reset.lock = .locked ∧
  State.reset.fbusy = false ∧ legalConfig State.reset.cfg = true ∧ State.reset.flash = []

/-! ### The whole machine -/

/-- Every step keeps the invariant: the pair of designators, `STEP` idle and flash locked whenever no command runs,
flash idle outside commands, flash contents canonical and inside the two pages, operands inside their width (R23, R24,
R27 to R29, R51). -/
def Obligations.StepKeepsInvariant : Prop :=
  ∀ s t : State, Inv s → step s = .next t → Inv t

/-- The state right after reset meets the invariant. -/
def Obligations.ResetStateMeetsInvariant : Prop := Inv State.reset

/-- Who moves the lock and the designators (R22, R28): only a form of `WRITE` changes `LOCK` and only `INIT` and `WRITE`
change `ACTIVE` and `INACTIVE`, unless power is lost at the last call the instruction makes (log entry 9) or reset is
raised inside it after that, after which they have their reset values. -/
def Obligations.OnlyInitAndWriteMoveTheStore : Prop :=
  ∀ (s t : State) (i : Instr), exec i s = .next t → writeForm i = false →
    (t.lock = s.lock ∧ (i ≠ .init → t.active = s.active ∧ t.inactive = s.inactive)) ∨
    (∃ k : Nat, t.drawn = s.drawn + k + 1 ∧ s.cutAt k ∧ t.registersReset) ∨
    (s.resetInside = true ∧ t.registersReset)

/-- Under a finite wait budget every instruction that runs completes: the block is idle again, `STEP` too,
whatever the draws (R26, R27, R228, R260). -/
def Obligations.FiniteBudgetAlwaysCompletes : Prop :=
  ∀ (s t : State) (i : Instr), s.cfg.waitBudget = .finite → exec i s = .next t →
    t.busy = false ∧ (s.step = .idle → t.step = .idle)

/-- Under an infinite budget a program of step 3 that never completes hangs the `WRITE` (R229): `BUSY` stays 1, flash
stays unlocked, `STEP` names the step; with nothing delivered it stays so, and only reset ends it. -/
def Obligations.HungWriteStaysUntilReset : Prop :=
  ∀ (s : State) (a : Page) (addr len : Nat) (data : List Byte), WriteAllowed s a addr len data →
    s.cfg.waitBudget = .infinite → s.pageState a = .valid → s.quiet 2 → (s.drawAt 2).kind = .noCompletion →
    ∃ t : State, exec (.write addr len data) s = .next t ∧
      t.busy = true ∧ t.fbusy = true ∧ t.lock = .unlocked ∧ t.step = .s3 ∧ t.activeIs a ∧
      (∀ rest : List Input, ∃ u : State, step { t with inputs := .reset :: rest } = .next u ∧
        u.busy = false ∧ u.lock = .locked ∧ u.flash = t.flash) ∧
      step { t with inputs := [] } = .next { t with inputs := [] }
end

