-- ==== Sys2Proof/Laws/Memory.lean ====
section
/-! SUPPORT. Laws of flash contents: what reads after a write, an erase or a run of writes give, and that each keeps the
canonical form. -/

namespace Sys2Proof.Machine

@[simp] theorem Memory.read_nil (a : Nat) : Memory.read [] a = erasedByte := rfl

theorem Memory.read_insert_self (a : Nat) (v : Byte) (m : Memory) (h : ∀ c ∈ m, c.1 ≠ a) :
    (Memory.insert a v m).read a = v := by
  induction m with
  | nil => simp [Memory.insert, Memory.read]
  | cons c rest ih =>
    have hc : a ≠ c.1 := fun e => h c (by simp) e.symm
    have hrest := ih fun d hd => h d (by simp [hd])
    by_cases hlt : a < c.1 <;> simp [Memory.insert, Memory.read, hlt, hc, hrest]

theorem Memory.read_insert_other (a b : Nat) (v : Byte) (m : Memory) (h : b ≠ a) :
    (Memory.insert a v m).read b = m.read b := by
  induction m with
  | nil => simp [Memory.insert, Memory.read, h]
  | cons c rest ih =>
    by_cases hlt : a < c.1
    · simp [Memory.insert, Memory.read, hlt, h]
    · by_cases hb : b = c.1 <;> simp [Memory.insert, Memory.read, hlt, hb, ih]

/-- Reading from the cells that a test on the address keeps. -/
theorem Memory.read_filter (keep : Nat → Bool) (m : Memory) (b : Nat) :
    Memory.read (m.filter fun c => keep c.1) b = if keep b then m.read b else erasedByte := by
  induction m with
  | nil => simp
  | cons c rest ih =>
    by_cases hk : keep c.1 <;> by_cases hb : b = c.1
    · subst hb; simp [Memory.read, hk]
    · simp [Memory.read, hk, hb, ih]
    · subst hb; simp [hk, ih]
    · simp [Memory.read, hk, hb, ih]

/-- Read after write (R73): the byte written at its address, every other byte as before. -/
theorem Memory.read_write (m : Memory) (a b : Nat) (v : Byte) :
    (m.write a v).read b = if b = a then v else m.read b := by
  have hf := Memory.read_filter (fun x => decide (x ≠ a)) m b
  by_cases hv : v = erasedByte
  · by_cases hb : b = a <;> simp_all [Memory.write]
  · by_cases hb : b = a
    · subst hb
      simp only [Memory.write, hv, if_false, if_true]
      exact Memory.read_insert_self _ _ _ fun c hc => by simpa using (List.mem_filter.mp hc).2
    · simp only [Memory.write, hv, if_false, hb]
      rw [Memory.read_insert_other _ _ _ _ hb]
      simpa [hb] using hf

@[simp] theorem Memory.read_write_self (m : Memory) (a : Nat) (v : Byte) : (m.write a v).read a = v := by
  simp [Memory.read_write]

theorem Memory.read_write_other (m : Memory) (a b : Nat) (v : Byte) (h : b ≠ a) :
    (m.write a v).read b = m.read b := by
  simp [Memory.read_write, h]

/-- Read after erase (R63, R65). -/
theorem Memory.read_erase (m : Memory) (a n b : Nat) :
    (m.erase a n).read b = if a ≤ b ∧ b < a + n then erasedByte else m.read b := by
  have hf := Memory.read_filter (fun x => decide (x < a ∨ a + n ≤ x)) m b
  by_cases h : b < a ∨ a + n ≤ b
  · have h' : ¬ (a ≤ b ∧ b < a + n) := by omega
    simpa [Memory.erase, h, h'] using hf
  · have h' : a ≤ b ∧ b < a + n := by omega
    simpa [Memory.erase, h, h'] using hf

/-- Reading after a run of writes. -/
theorem Memory.read_writeBytes (m : Memory) (a : Nat) (l : List Byte) (b : Nat) :
    (m.writeBytes a l).read b =
      if a ≤ b ∧ b < a + l.length then l.getD (b - a) 0 else m.read b := by
  induction l generalizing m a with
  | nil => simp [Memory.writeBytes]
  | cons x rest ih =>
    simp only [Memory.writeBytes, ih, Memory.read_write, List.length_cons]
    by_cases hb : b = a
    · subst hb; simp
    · by_cases h : a + 1 ≤ b ∧ b < a + 1 + rest.length
      · have h' : a ≤ b ∧ b < a + (rest.length + 1) := by omega
        obtain ⟨k, hk⟩ : ∃ k, b = a + 1 + k := ⟨b - (a + 1), by omega⟩
        subst hk
        have e : a + 1 + k - a = k + 1 := by omega
        simp [h, e]
        intro hc; omega
      · have h' : ¬ (a ≤ b ∧ b < a + (rest.length + 1)) := by omega
        rw [if_neg h, if_neg h', if_neg hb]

/-! ### The canonical form -/

theorem Memory.wf_cons (a : Nat) (v : Byte) (rest : Memory) :
    Memory.wf ((a, v) :: rest) = true ↔
      v ≠ erasedByte ∧ (∀ c ∈ rest, a < c.1) ∧ Memory.wf rest = true := by
  simp [Memory.wf, and_assoc]

theorem Memory.wf_filter (keep : Host.Cell → Bool) (m : Memory) (h : m.wf = true) :
    Memory.wf (m.filter keep) = true := by
  induction m with
  | nil => rfl
  | cons c rest ih =>
    obtain ⟨hv, hlt, hr⟩ := (Memory.wf_cons c.1 c.2 rest).mp h
    by_cases hk : keep c
    · rw [List.filter_cons_of_pos hk]
      exact (Memory.wf_cons c.1 c.2 _).mpr
        ⟨hv, fun d hd => hlt d (List.mem_filter.mp hd).1, ih hr⟩
    · simpa [hk] using ih hr

theorem Memory.mem_insert (a : Nat) (v : Byte) (m : Memory) (c : Host.Cell) :
    c ∈ Memory.insert a v m ↔ c = (a, v) ∨ c ∈ m := by
  induction m with
  | nil => simp [Memory.insert]
  | cons d rest ih =>
    by_cases hlt : a < d.1
    · simp [Memory.insert, hlt]
    · simp only [Memory.insert, hlt, if_false, List.mem_cons, ih]
      tauto

theorem Memory.wf_insert (a : Nat) (v : Byte) (m : Memory) (hv : v ≠ erasedByte)
    (hm : m.wf = true) (ha : ∀ c ∈ m, c.1 ≠ a) : Memory.wf (Memory.insert a v m) = true := by
  induction m with
  | nil => simp [Memory.insert, Memory.wf, hv]
  | cons d rest ih =>
    obtain ⟨hw, hlt, hr⟩ := (Memory.wf_cons d.1 d.2 rest).mp hm
    by_cases h : a < d.1
    · simp only [Memory.insert, h, if_true]
      refine (Memory.wf_cons a v _).mpr ⟨hv, fun c hc => ?_, hm⟩
      rcases List.mem_cons.mp hc with rfl | hc
      · exact h
      · exact h.trans (hlt c hc)
    · simp only [Memory.insert, h, if_false]
      have hne : d.1 ≠ a := ha d (by simp)
      refine (Memory.wf_cons d.1 d.2 _).mpr
        ⟨hw, fun c hc => ?_, ih hr fun c hc => ha c (by simp [hc])⟩
      rcases (Memory.mem_insert a v rest c).mp hc with rfl | hc
      · simp only; omega
      · exact hlt c hc

/-- A write keeps the canonical form. -/
theorem Memory.wf_write (m : Memory) (a : Nat) (v : Byte) (h : m.wf = true) :
    (m.write a v).wf = true := by
  have hf : Memory.wf (m.filter fun c => decide (c.1 ≠ a)) = true := Memory.wf_filter _ m h
  by_cases hv : v = erasedByte
  · simpa [Memory.write, hv] using hf
  · simp only [Memory.write, hv, if_false]
    exact Memory.wf_insert a v _ hv hf fun c hc => by simpa using (List.mem_filter.mp hc).2

/-- An erase keeps the canonical form. -/
theorem Memory.wf_erase (m : Memory) (a n : Nat) (h : m.wf = true) : (m.erase a n).wf = true :=
  Memory.wf_filter _ m h

/-- A run of writes keeps the canonical form. -/
theorem Memory.wf_writeBytes (m : Memory) (a : Nat) (l : List Byte) (h : m.wf = true) :
    (m.writeBytes a l).wf = true := by
  induction l generalizing m a with
  | nil => exact h
  | cons x rest ih => exact ih _ _ (Memory.wf_write m a x h)

/-- The contents right after reset are in canonical form. -/
theorem Memory.wf_reset : State.reset.flash.wf = true := rfl

/-- In canonical form an address below every listed one reads as erased. -/
theorem Memory.read_below (m : Memory) (a : Nat) (h : ∀ c ∈ m, a < c.1) : m.read a = erasedByte := by
  induction m with
  | nil => rfl
  | cons c rest ih =>
    have : a ≠ c.1 := Nat.ne_of_lt (h c (by simp))
    simp [Memory.read, this, ih fun d hd => h d (by simp [hd])]

/-- Two canonical memories that read alike are equal. -/
theorem Memory.ext_of_read (m n : Memory) (hm : m.wf = true) (hn : n.wf = true)
    (h : ∀ a, m.read a = n.read a) : m = n := by
  induction m generalizing n with
  | nil =>
    cases n with
    | nil => rfl
    | cons c rest =>
      obtain ⟨hv, _, _⟩ := (Memory.wf_cons c.1 c.2 rest).mp hn
      exact absurd (by simpa [Memory.read] using (h c.1).symm) hv
  | cons c rest ih =>
    obtain ⟨hv, hlt, hr⟩ := (Memory.wf_cons c.1 c.2 rest).mp hm
    have hc := h c.1
    simp only [Memory.read, if_true] at hc
    cases n with
    | nil => exact absurd hc hv
    | cons d rest' =>
      obtain ⟨hw, hlt', hr'⟩ := (Memory.wf_cons d.1 d.2 rest').mp hn
      have hd := h d.1
      simp only [Memory.read, if_true] at hd
      have e1 : c.1 = d.1 := by
        rcases Nat.lt_trichotomy c.1 d.1 with hl | he | hg
        · have : Memory.read (d :: rest') c.1 = erasedByte :=
            Memory.read_below _ _ fun x hx => by
              rcases List.mem_cons.mp hx with rfl | hx
              · exact hl
              · exact hl.trans (hlt' x hx)
          exact absurd (hc.trans this) hv
        · exact he
        · have : Memory.read (c :: rest) d.1 = erasedByte :=
            Memory.read_below _ _ fun x hx => by
              rcases List.mem_cons.mp hx with rfl | hx
              · exact hg
              · exact hg.trans (hlt x hx)
          exact absurd (hd.symm.trans this) hw
      have e2 : c = d := Prod.ext e1 (by simpa [Memory.read, e1] using hc)
      subst e2
      refine congrArg (c :: ·) (ih rest' hr hr' fun a => ?_)
      by_cases ha : a = c.1
      · subst ha
        rw [Memory.read_below _ _ hlt, Memory.read_below _ _ hlt']
      · simpa [Memory.read, ha] using h a

/-- Where the cells of a written memory lie. -/
theorem Memory.mem_write (m : Memory) (a : Nat) (v : Byte) (c : Host.Cell) (h : c ∈ m.write a v) :
    c.1 = a ∨ c ∈ m := by
  by_cases hv : v = erasedByte
  · simp only [Memory.write, hv, if_true] at h
    exact .inr (List.mem_filter.mp h).1
  · simp only [Memory.write, hv, if_false] at h
    rcases (Memory.mem_insert _ _ _ _).mp h with rfl | h
    · exact .inl rfl
    · exact .inr (List.mem_filter.mp h).1

/-- An erase lists nothing new. -/
theorem Memory.mem_erase (m : Memory) (a n : Nat) (c : Host.Cell) (h : c ∈ m.erase a n) : c ∈ m :=
  (List.mem_filter.mp h).1

/-- Where the cells lie after a run of writes. -/
theorem Memory.mem_writeBytes (m : Memory) (a : Nat) (l : List Byte) (c : Host.Cell)
    (h : c ∈ m.writeBytes a l) : (a ≤ c.1 ∧ c.1 < a + l.length) ∨ c ∈ m := by
  induction l generalizing m a with
  | nil => exact .inr h
  | cons x rest ih =>
    rcases ih _ _ h with hin | hm
    · left; simp only [List.length_cons]; omega
    · rcases Memory.mem_write _ _ _ _ hm with he | hm
      · left; simp only [List.length_cons]; omega
      · exact .inr hm

end Sys2Proof.Machine
end

