-- ==== Sys2Proof/Laws/State.lean ====
section
/-! SUPPORT. One lemma per field per named update of State, each true by rfl, so that no later proof unfolds a record
update. -/

namespace Sys2Proof.Machine

@[simp] theorem State.setDesignation_cfg (s : State) (a i : Designator) : (s.setDesignation a i).cfg = s.cfg := rfl
@[simp] theorem State.setDesignation_active (s : State) (a i : Designator) : (s.setDesignation a i).active = a := rfl
@[simp] theorem State.setDesignation_inactive (s : State) (a i : Designator) : (s.setDesignation a i).inactive = i := rfl
@[simp] theorem State.setDesignation_status (s : State) (a i : Designator) : (s.setDesignation a i).status = s.status := rfl
@[simp] theorem State.setDesignation_busy (s : State) (a i : Designator) : (s.setDesignation a i).busy = s.busy := rfl
@[simp] theorem State.setDesignation_cmd (s : State) (a i : Designator) : (s.setDesignation a i).cmd = s.cmd := rfl
@[simp] theorem State.setDesignation_addr (s : State) (a i : Designator) : (s.setDesignation a i).addr = s.addr := rfl
@[simp] theorem State.setDesignation_len (s : State) (a i : Designator) : (s.setDesignation a i).len = s.len := rfl
@[simp] theorem State.setDesignation_wdata (s : State) (a i : Designator) : (s.setDesignation a i).wdata = s.wdata := rfl
@[simp] theorem State.setDesignation_rdata (s : State) (a i : Designator) : (s.setDesignation a i).rdata = s.rdata := rfl
@[simp] theorem State.setDesignation_step (s : State) (a i : Designator) : (s.setDesignation a i).step = s.step := rfl
@[simp] theorem State.setDesignation_sreg (s : State) (a i : Designator) : (s.setDesignation a i).sreg = s.sreg := rfl
@[simp] theorem State.setDesignation_acc (s : State) (a i : Designator) : (s.setDesignation a i).acc = s.acc := rfl
@[simp] theorem State.setDesignation_lock (s : State) (a i : Designator) : (s.setDesignation a i).lock = s.lock := rfl
@[simp] theorem State.setDesignation_fbusy (s : State) (a i : Designator) : (s.setDesignation a i).fbusy = s.fbusy := rfl
@[simp] theorem State.setDesignation_flash (s : State) (a i : Designator) : (s.setDesignation a i).flash = s.flash := rfl
@[simp] theorem State.setDesignation_ures (s : State) (a i : Designator) : (s.setDesignation a i).ures = s.ures := rfl
@[simp] theorem State.setDesignation_inputs (s : State) (a i : Designator) : (s.setDesignation a i).inputs = s.inputs := rfl
@[simp] theorem State.setDesignation_draws (s : State) (a i : Designator) : (s.setDesignation a i).draws = s.draws := rfl
@[simp] theorem State.setDesignation_drawn (s : State) (a i : Designator) : (s.setDesignation a i).drawn = s.drawn := rfl

@[simp] theorem State.setStatus_cfg (s : State) (k : Status) : (s.setStatus k).cfg = s.cfg := rfl
@[simp] theorem State.setStatus_active (s : State) (k : Status) : (s.setStatus k).active = s.active := rfl
@[simp] theorem State.setStatus_inactive (s : State) (k : Status) : (s.setStatus k).inactive = s.inactive := rfl
@[simp] theorem State.setStatus_status (s : State) (k : Status) : (s.setStatus k).status = k := rfl
@[simp] theorem State.setStatus_busy (s : State) (k : Status) : (s.setStatus k).busy = s.busy := rfl
@[simp] theorem State.setStatus_cmd (s : State) (k : Status) : (s.setStatus k).cmd = s.cmd := rfl
@[simp] theorem State.setStatus_addr (s : State) (k : Status) : (s.setStatus k).addr = s.addr := rfl
@[simp] theorem State.setStatus_len (s : State) (k : Status) : (s.setStatus k).len = s.len := rfl
@[simp] theorem State.setStatus_wdata (s : State) (k : Status) : (s.setStatus k).wdata = s.wdata := rfl
@[simp] theorem State.setStatus_rdata (s : State) (k : Status) : (s.setStatus k).rdata = s.rdata := rfl
@[simp] theorem State.setStatus_step (s : State) (k : Status) : (s.setStatus k).step = s.step := rfl
@[simp] theorem State.setStatus_sreg (s : State) (k : Status) : (s.setStatus k).sreg = s.sreg := rfl
@[simp] theorem State.setStatus_acc (s : State) (k : Status) : (s.setStatus k).acc = s.acc := rfl
@[simp] theorem State.setStatus_lock (s : State) (k : Status) : (s.setStatus k).lock = s.lock := rfl
@[simp] theorem State.setStatus_fbusy (s : State) (k : Status) : (s.setStatus k).fbusy = s.fbusy := rfl
@[simp] theorem State.setStatus_flash (s : State) (k : Status) : (s.setStatus k).flash = s.flash := rfl
@[simp] theorem State.setStatus_ures (s : State) (k : Status) : (s.setStatus k).ures = s.ures := rfl
@[simp] theorem State.setStatus_inputs (s : State) (k : Status) : (s.setStatus k).inputs = s.inputs := rfl
@[simp] theorem State.setStatus_draws (s : State) (k : Status) : (s.setStatus k).draws = s.draws := rfl
@[simp] theorem State.setStatus_drawn (s : State) (k : Status) : (s.setStatus k).drawn = s.drawn := rfl

@[simp] theorem State.setBusy_cfg (s : State) (b : Bool) : (s.setBusy b).cfg = s.cfg := rfl
@[simp] theorem State.setBusy_active (s : State) (b : Bool) : (s.setBusy b).active = s.active := rfl
@[simp] theorem State.setBusy_inactive (s : State) (b : Bool) : (s.setBusy b).inactive = s.inactive := rfl
@[simp] theorem State.setBusy_status (s : State) (b : Bool) : (s.setBusy b).status = s.status := rfl
@[simp] theorem State.setBusy_busy (s : State) (b : Bool) : (s.setBusy b).busy = b := rfl
@[simp] theorem State.setBusy_cmd (s : State) (b : Bool) : (s.setBusy b).cmd = s.cmd := rfl
@[simp] theorem State.setBusy_addr (s : State) (b : Bool) : (s.setBusy b).addr = s.addr := rfl
@[simp] theorem State.setBusy_len (s : State) (b : Bool) : (s.setBusy b).len = s.len := rfl
@[simp] theorem State.setBusy_wdata (s : State) (b : Bool) : (s.setBusy b).wdata = s.wdata := rfl
@[simp] theorem State.setBusy_rdata (s : State) (b : Bool) : (s.setBusy b).rdata = s.rdata := rfl
@[simp] theorem State.setBusy_step (s : State) (b : Bool) : (s.setBusy b).step = s.step := rfl
@[simp] theorem State.setBusy_sreg (s : State) (b : Bool) : (s.setBusy b).sreg = s.sreg := rfl
@[simp] theorem State.setBusy_acc (s : State) (b : Bool) : (s.setBusy b).acc = s.acc := rfl
@[simp] theorem State.setBusy_lock (s : State) (b : Bool) : (s.setBusy b).lock = s.lock := rfl
@[simp] theorem State.setBusy_fbusy (s : State) (b : Bool) : (s.setBusy b).fbusy = s.fbusy := rfl
@[simp] theorem State.setBusy_flash (s : State) (b : Bool) : (s.setBusy b).flash = s.flash := rfl
@[simp] theorem State.setBusy_ures (s : State) (b : Bool) : (s.setBusy b).ures = s.ures := rfl
@[simp] theorem State.setBusy_inputs (s : State) (b : Bool) : (s.setBusy b).inputs = s.inputs := rfl
@[simp] theorem State.setBusy_draws (s : State) (b : Bool) : (s.setBusy b).draws = s.draws := rfl
@[simp] theorem State.setBusy_drawn (s : State) (b : Bool) : (s.setBusy b).drawn = s.drawn := rfl

@[simp] theorem State.setCmd_cfg (s : State) (c : Byte) : (s.setCmd c).cfg = s.cfg := rfl
@[simp] theorem State.setCmd_active (s : State) (c : Byte) : (s.setCmd c).active = s.active := rfl
@[simp] theorem State.setCmd_inactive (s : State) (c : Byte) : (s.setCmd c).inactive = s.inactive := rfl
@[simp] theorem State.setCmd_status (s : State) (c : Byte) : (s.setCmd c).status = s.status := rfl
@[simp] theorem State.setCmd_busy (s : State) (c : Byte) : (s.setCmd c).busy = s.busy := rfl
@[simp] theorem State.setCmd_cmd (s : State) (c : Byte) : (s.setCmd c).cmd = c := rfl
@[simp] theorem State.setCmd_addr (s : State) (c : Byte) : (s.setCmd c).addr = s.addr := rfl
@[simp] theorem State.setCmd_len (s : State) (c : Byte) : (s.setCmd c).len = s.len := rfl
@[simp] theorem State.setCmd_wdata (s : State) (c : Byte) : (s.setCmd c).wdata = s.wdata := rfl
@[simp] theorem State.setCmd_rdata (s : State) (c : Byte) : (s.setCmd c).rdata = s.rdata := rfl
@[simp] theorem State.setCmd_step (s : State) (c : Byte) : (s.setCmd c).step = s.step := rfl
@[simp] theorem State.setCmd_sreg (s : State) (c : Byte) : (s.setCmd c).sreg = s.sreg := rfl
@[simp] theorem State.setCmd_acc (s : State) (c : Byte) : (s.setCmd c).acc = s.acc := rfl
@[simp] theorem State.setCmd_lock (s : State) (c : Byte) : (s.setCmd c).lock = s.lock := rfl
@[simp] theorem State.setCmd_fbusy (s : State) (c : Byte) : (s.setCmd c).fbusy = s.fbusy := rfl
@[simp] theorem State.setCmd_flash (s : State) (c : Byte) : (s.setCmd c).flash = s.flash := rfl
@[simp] theorem State.setCmd_ures (s : State) (c : Byte) : (s.setCmd c).ures = s.ures := rfl
@[simp] theorem State.setCmd_inputs (s : State) (c : Byte) : (s.setCmd c).inputs = s.inputs := rfl
@[simp] theorem State.setCmd_draws (s : State) (c : Byte) : (s.setCmd c).draws = s.draws := rfl
@[simp] theorem State.setCmd_drawn (s : State) (c : Byte) : (s.setCmd c).drawn = s.drawn := rfl

@[simp] theorem State.setOperands_cfg (s : State) (a n : Nat) : (s.setOperands a n).cfg = s.cfg := rfl
@[simp] theorem State.setOperands_active (s : State) (a n : Nat) : (s.setOperands a n).active = s.active := rfl
@[simp] theorem State.setOperands_inactive (s : State) (a n : Nat) : (s.setOperands a n).inactive = s.inactive := rfl
@[simp] theorem State.setOperands_status (s : State) (a n : Nat) : (s.setOperands a n).status = s.status := rfl
@[simp] theorem State.setOperands_busy (s : State) (a n : Nat) : (s.setOperands a n).busy = s.busy := rfl
@[simp] theorem State.setOperands_cmd (s : State) (a n : Nat) : (s.setOperands a n).cmd = s.cmd := rfl
@[simp] theorem State.setOperands_addr (s : State) (a n : Nat) : (s.setOperands a n).addr = a := rfl
@[simp] theorem State.setOperands_len (s : State) (a n : Nat) : (s.setOperands a n).len = n := rfl
@[simp] theorem State.setOperands_wdata (s : State) (a n : Nat) : (s.setOperands a n).wdata = s.wdata := rfl
@[simp] theorem State.setOperands_rdata (s : State) (a n : Nat) : (s.setOperands a n).rdata = s.rdata := rfl
@[simp] theorem State.setOperands_step (s : State) (a n : Nat) : (s.setOperands a n).step = s.step := rfl
@[simp] theorem State.setOperands_sreg (s : State) (a n : Nat) : (s.setOperands a n).sreg = s.sreg := rfl
@[simp] theorem State.setOperands_acc (s : State) (a n : Nat) : (s.setOperands a n).acc = s.acc := rfl
@[simp] theorem State.setOperands_lock (s : State) (a n : Nat) : (s.setOperands a n).lock = s.lock := rfl
@[simp] theorem State.setOperands_fbusy (s : State) (a n : Nat) : (s.setOperands a n).fbusy = s.fbusy := rfl
@[simp] theorem State.setOperands_flash (s : State) (a n : Nat) : (s.setOperands a n).flash = s.flash := rfl
@[simp] theorem State.setOperands_ures (s : State) (a n : Nat) : (s.setOperands a n).ures = s.ures := rfl
@[simp] theorem State.setOperands_inputs (s : State) (a n : Nat) : (s.setOperands a n).inputs = s.inputs := rfl
@[simp] theorem State.setOperands_draws (s : State) (a n : Nat) : (s.setOperands a n).draws = s.draws := rfl
@[simp] theorem State.setOperands_drawn (s : State) (a n : Nat) : (s.setOperands a n).drawn = s.drawn := rfl

@[simp] theorem State.setWdata_cfg (s : State) (d : List Byte) : (s.setWdata d).cfg = s.cfg := rfl
@[simp] theorem State.setWdata_active (s : State) (d : List Byte) : (s.setWdata d).active = s.active := rfl
@[simp] theorem State.setWdata_inactive (s : State) (d : List Byte) : (s.setWdata d).inactive = s.inactive := rfl
@[simp] theorem State.setWdata_status (s : State) (d : List Byte) : (s.setWdata d).status = s.status := rfl
@[simp] theorem State.setWdata_busy (s : State) (d : List Byte) : (s.setWdata d).busy = s.busy := rfl
@[simp] theorem State.setWdata_cmd (s : State) (d : List Byte) : (s.setWdata d).cmd = s.cmd := rfl
@[simp] theorem State.setWdata_addr (s : State) (d : List Byte) : (s.setWdata d).addr = s.addr := rfl
@[simp] theorem State.setWdata_len (s : State) (d : List Byte) : (s.setWdata d).len = s.len := rfl
@[simp] theorem State.setWdata_wdata (s : State) (d : List Byte) : (s.setWdata d).wdata = d := rfl
@[simp] theorem State.setWdata_rdata (s : State) (d : List Byte) : (s.setWdata d).rdata = s.rdata := rfl
@[simp] theorem State.setWdata_step (s : State) (d : List Byte) : (s.setWdata d).step = s.step := rfl
@[simp] theorem State.setWdata_sreg (s : State) (d : List Byte) : (s.setWdata d).sreg = s.sreg := rfl
@[simp] theorem State.setWdata_acc (s : State) (d : List Byte) : (s.setWdata d).acc = s.acc := rfl
@[simp] theorem State.setWdata_lock (s : State) (d : List Byte) : (s.setWdata d).lock = s.lock := rfl
@[simp] theorem State.setWdata_fbusy (s : State) (d : List Byte) : (s.setWdata d).fbusy = s.fbusy := rfl
@[simp] theorem State.setWdata_flash (s : State) (d : List Byte) : (s.setWdata d).flash = s.flash := rfl
@[simp] theorem State.setWdata_ures (s : State) (d : List Byte) : (s.setWdata d).ures = s.ures := rfl
@[simp] theorem State.setWdata_inputs (s : State) (d : List Byte) : (s.setWdata d).inputs = s.inputs := rfl
@[simp] theorem State.setWdata_draws (s : State) (d : List Byte) : (s.setWdata d).draws = s.draws := rfl
@[simp] theorem State.setWdata_drawn (s : State) (d : List Byte) : (s.setWdata d).drawn = s.drawn := rfl

@[simp] theorem State.setRdata_cfg (s : State) (d : List Byte) : (s.setRdata d).cfg = s.cfg := rfl
@[simp] theorem State.setRdata_active (s : State) (d : List Byte) : (s.setRdata d).active = s.active := rfl
@[simp] theorem State.setRdata_inactive (s : State) (d : List Byte) : (s.setRdata d).inactive = s.inactive := rfl
@[simp] theorem State.setRdata_status (s : State) (d : List Byte) : (s.setRdata d).status = s.status := rfl
@[simp] theorem State.setRdata_busy (s : State) (d : List Byte) : (s.setRdata d).busy = s.busy := rfl
@[simp] theorem State.setRdata_cmd (s : State) (d : List Byte) : (s.setRdata d).cmd = s.cmd := rfl
@[simp] theorem State.setRdata_addr (s : State) (d : List Byte) : (s.setRdata d).addr = s.addr := rfl
@[simp] theorem State.setRdata_len (s : State) (d : List Byte) : (s.setRdata d).len = s.len := rfl
@[simp] theorem State.setRdata_wdata (s : State) (d : List Byte) : (s.setRdata d).wdata = s.wdata := rfl
@[simp] theorem State.setRdata_rdata (s : State) (d : List Byte) : (s.setRdata d).rdata = d := rfl
@[simp] theorem State.setRdata_step (s : State) (d : List Byte) : (s.setRdata d).step = s.step := rfl
@[simp] theorem State.setRdata_sreg (s : State) (d : List Byte) : (s.setRdata d).sreg = s.sreg := rfl
@[simp] theorem State.setRdata_acc (s : State) (d : List Byte) : (s.setRdata d).acc = s.acc := rfl
@[simp] theorem State.setRdata_lock (s : State) (d : List Byte) : (s.setRdata d).lock = s.lock := rfl
@[simp] theorem State.setRdata_fbusy (s : State) (d : List Byte) : (s.setRdata d).fbusy = s.fbusy := rfl
@[simp] theorem State.setRdata_flash (s : State) (d : List Byte) : (s.setRdata d).flash = s.flash := rfl
@[simp] theorem State.setRdata_ures (s : State) (d : List Byte) : (s.setRdata d).ures = s.ures := rfl
@[simp] theorem State.setRdata_inputs (s : State) (d : List Byte) : (s.setRdata d).inputs = s.inputs := rfl
@[simp] theorem State.setRdata_draws (s : State) (d : List Byte) : (s.setRdata d).draws = s.draws := rfl
@[simp] theorem State.setRdata_drawn (s : State) (d : List Byte) : (s.setRdata d).drawn = s.drawn := rfl

@[simp] theorem State.setStep_cfg (s : State) (k : StepReg) : (s.setStep k).cfg = s.cfg := rfl
@[simp] theorem State.setStep_active (s : State) (k : StepReg) : (s.setStep k).active = s.active := rfl
@[simp] theorem State.setStep_inactive (s : State) (k : StepReg) : (s.setStep k).inactive = s.inactive := rfl
@[simp] theorem State.setStep_status (s : State) (k : StepReg) : (s.setStep k).status = s.status := rfl
@[simp] theorem State.setStep_busy (s : State) (k : StepReg) : (s.setStep k).busy = s.busy := rfl
@[simp] theorem State.setStep_cmd (s : State) (k : StepReg) : (s.setStep k).cmd = s.cmd := rfl
@[simp] theorem State.setStep_addr (s : State) (k : StepReg) : (s.setStep k).addr = s.addr := rfl
@[simp] theorem State.setStep_len (s : State) (k : StepReg) : (s.setStep k).len = s.len := rfl
@[simp] theorem State.setStep_wdata (s : State) (k : StepReg) : (s.setStep k).wdata = s.wdata := rfl
@[simp] theorem State.setStep_rdata (s : State) (k : StepReg) : (s.setStep k).rdata = s.rdata := rfl
@[simp] theorem State.setStep_step (s : State) (k : StepReg) : (s.setStep k).step = k := rfl
@[simp] theorem State.setStep_sreg (s : State) (k : StepReg) : (s.setStep k).sreg = s.sreg := rfl
@[simp] theorem State.setStep_acc (s : State) (k : StepReg) : (s.setStep k).acc = s.acc := rfl
@[simp] theorem State.setStep_lock (s : State) (k : StepReg) : (s.setStep k).lock = s.lock := rfl
@[simp] theorem State.setStep_fbusy (s : State) (k : StepReg) : (s.setStep k).fbusy = s.fbusy := rfl
@[simp] theorem State.setStep_flash (s : State) (k : StepReg) : (s.setStep k).flash = s.flash := rfl
@[simp] theorem State.setStep_ures (s : State) (k : StepReg) : (s.setStep k).ures = s.ures := rfl
@[simp] theorem State.setStep_inputs (s : State) (k : StepReg) : (s.setStep k).inputs = s.inputs := rfl
@[simp] theorem State.setStep_draws (s : State) (k : StepReg) : (s.setStep k).draws = s.draws := rfl
@[simp] theorem State.setStep_drawn (s : State) (k : StepReg) : (s.setStep k).drawn = s.drawn := rfl

@[simp] theorem State.setSreg_cfg (s : State) (w : StateWord) : (s.setSreg w).cfg = s.cfg := rfl
@[simp] theorem State.setSreg_active (s : State) (w : StateWord) : (s.setSreg w).active = s.active := rfl
@[simp] theorem State.setSreg_inactive (s : State) (w : StateWord) : (s.setSreg w).inactive = s.inactive := rfl
@[simp] theorem State.setSreg_status (s : State) (w : StateWord) : (s.setSreg w).status = s.status := rfl
@[simp] theorem State.setSreg_busy (s : State) (w : StateWord) : (s.setSreg w).busy = s.busy := rfl
@[simp] theorem State.setSreg_cmd (s : State) (w : StateWord) : (s.setSreg w).cmd = s.cmd := rfl
@[simp] theorem State.setSreg_addr (s : State) (w : StateWord) : (s.setSreg w).addr = s.addr := rfl
@[simp] theorem State.setSreg_len (s : State) (w : StateWord) : (s.setSreg w).len = s.len := rfl
@[simp] theorem State.setSreg_wdata (s : State) (w : StateWord) : (s.setSreg w).wdata = s.wdata := rfl
@[simp] theorem State.setSreg_rdata (s : State) (w : StateWord) : (s.setSreg w).rdata = s.rdata := rfl
@[simp] theorem State.setSreg_step (s : State) (w : StateWord) : (s.setSreg w).step = s.step := rfl
@[simp] theorem State.setSreg_sreg (s : State) (w : StateWord) : (s.setSreg w).sreg = w := rfl
@[simp] theorem State.setSreg_acc (s : State) (w : StateWord) : (s.setSreg w).acc = s.acc := rfl
@[simp] theorem State.setSreg_lock (s : State) (w : StateWord) : (s.setSreg w).lock = s.lock := rfl
@[simp] theorem State.setSreg_fbusy (s : State) (w : StateWord) : (s.setSreg w).fbusy = s.fbusy := rfl
@[simp] theorem State.setSreg_flash (s : State) (w : StateWord) : (s.setSreg w).flash = s.flash := rfl
@[simp] theorem State.setSreg_ures (s : State) (w : StateWord) : (s.setSreg w).ures = s.ures := rfl
@[simp] theorem State.setSreg_inputs (s : State) (w : StateWord) : (s.setSreg w).inputs = s.inputs := rfl
@[simp] theorem State.setSreg_draws (s : State) (w : StateWord) : (s.setSreg w).draws = s.draws := rfl
@[simp] theorem State.setSreg_drawn (s : State) (w : StateWord) : (s.setSreg w).drawn = s.drawn := rfl

@[simp] theorem State.setAcc_cfg (s : State) (v : Half) : (s.setAcc v).cfg = s.cfg := rfl
@[simp] theorem State.setAcc_active (s : State) (v : Half) : (s.setAcc v).active = s.active := rfl
@[simp] theorem State.setAcc_inactive (s : State) (v : Half) : (s.setAcc v).inactive = s.inactive := rfl
@[simp] theorem State.setAcc_status (s : State) (v : Half) : (s.setAcc v).status = s.status := rfl
@[simp] theorem State.setAcc_busy (s : State) (v : Half) : (s.setAcc v).busy = s.busy := rfl
@[simp] theorem State.setAcc_cmd (s : State) (v : Half) : (s.setAcc v).cmd = s.cmd := rfl
@[simp] theorem State.setAcc_addr (s : State) (v : Half) : (s.setAcc v).addr = s.addr := rfl
@[simp] theorem State.setAcc_len (s : State) (v : Half) : (s.setAcc v).len = s.len := rfl
@[simp] theorem State.setAcc_wdata (s : State) (v : Half) : (s.setAcc v).wdata = s.wdata := rfl
@[simp] theorem State.setAcc_rdata (s : State) (v : Half) : (s.setAcc v).rdata = s.rdata := rfl
@[simp] theorem State.setAcc_step (s : State) (v : Half) : (s.setAcc v).step = s.step := rfl
@[simp] theorem State.setAcc_sreg (s : State) (v : Half) : (s.setAcc v).sreg = s.sreg := rfl
@[simp] theorem State.setAcc_acc (s : State) (v : Half) : (s.setAcc v).acc = v := rfl
@[simp] theorem State.setAcc_lock (s : State) (v : Half) : (s.setAcc v).lock = s.lock := rfl
@[simp] theorem State.setAcc_fbusy (s : State) (v : Half) : (s.setAcc v).fbusy = s.fbusy := rfl
@[simp] theorem State.setAcc_flash (s : State) (v : Half) : (s.setAcc v).flash = s.flash := rfl
@[simp] theorem State.setAcc_ures (s : State) (v : Half) : (s.setAcc v).ures = s.ures := rfl
@[simp] theorem State.setAcc_inputs (s : State) (v : Half) : (s.setAcc v).inputs = s.inputs := rfl
@[simp] theorem State.setAcc_draws (s : State) (v : Half) : (s.setAcc v).draws = s.draws := rfl
@[simp] theorem State.setAcc_drawn (s : State) (v : Half) : (s.setAcc v).drawn = s.drawn := rfl

@[simp] theorem State.setLock_cfg (s : State) (l : Lock) : (s.setLock l).cfg = s.cfg := rfl
@[simp] theorem State.setLock_active (s : State) (l : Lock) : (s.setLock l).active = s.active := rfl
@[simp] theorem State.setLock_inactive (s : State) (l : Lock) : (s.setLock l).inactive = s.inactive := rfl
@[simp] theorem State.setLock_status (s : State) (l : Lock) : (s.setLock l).status = s.status := rfl
@[simp] theorem State.setLock_busy (s : State) (l : Lock) : (s.setLock l).busy = s.busy := rfl
@[simp] theorem State.setLock_cmd (s : State) (l : Lock) : (s.setLock l).cmd = s.cmd := rfl
@[simp] theorem State.setLock_addr (s : State) (l : Lock) : (s.setLock l).addr = s.addr := rfl
@[simp] theorem State.setLock_len (s : State) (l : Lock) : (s.setLock l).len = s.len := rfl
@[simp] theorem State.setLock_wdata (s : State) (l : Lock) : (s.setLock l).wdata = s.wdata := rfl
@[simp] theorem State.setLock_rdata (s : State) (l : Lock) : (s.setLock l).rdata = s.rdata := rfl
@[simp] theorem State.setLock_step (s : State) (l : Lock) : (s.setLock l).step = s.step := rfl
@[simp] theorem State.setLock_sreg (s : State) (l : Lock) : (s.setLock l).sreg = s.sreg := rfl
@[simp] theorem State.setLock_acc (s : State) (l : Lock) : (s.setLock l).acc = s.acc := rfl
@[simp] theorem State.setLock_lock (s : State) (l : Lock) : (s.setLock l).lock = l := rfl
@[simp] theorem State.setLock_fbusy (s : State) (l : Lock) : (s.setLock l).fbusy = s.fbusy := rfl
@[simp] theorem State.setLock_flash (s : State) (l : Lock) : (s.setLock l).flash = s.flash := rfl
@[simp] theorem State.setLock_ures (s : State) (l : Lock) : (s.setLock l).ures = s.ures := rfl
@[simp] theorem State.setLock_inputs (s : State) (l : Lock) : (s.setLock l).inputs = s.inputs := rfl
@[simp] theorem State.setLock_draws (s : State) (l : Lock) : (s.setLock l).draws = s.draws := rfl
@[simp] theorem State.setLock_drawn (s : State) (l : Lock) : (s.setLock l).drawn = s.drawn := rfl

@[simp] theorem State.setFbusy_cfg (s : State) (b : Bool) : (s.setFbusy b).cfg = s.cfg := rfl
@[simp] theorem State.setFbusy_active (s : State) (b : Bool) : (s.setFbusy b).active = s.active := rfl
@[simp] theorem State.setFbusy_inactive (s : State) (b : Bool) : (s.setFbusy b).inactive = s.inactive := rfl
@[simp] theorem State.setFbusy_status (s : State) (b : Bool) : (s.setFbusy b).status = s.status := rfl
@[simp] theorem State.setFbusy_busy (s : State) (b : Bool) : (s.setFbusy b).busy = s.busy := rfl
@[simp] theorem State.setFbusy_cmd (s : State) (b : Bool) : (s.setFbusy b).cmd = s.cmd := rfl
@[simp] theorem State.setFbusy_addr (s : State) (b : Bool) : (s.setFbusy b).addr = s.addr := rfl
@[simp] theorem State.setFbusy_len (s : State) (b : Bool) : (s.setFbusy b).len = s.len := rfl
@[simp] theorem State.setFbusy_wdata (s : State) (b : Bool) : (s.setFbusy b).wdata = s.wdata := rfl
@[simp] theorem State.setFbusy_rdata (s : State) (b : Bool) : (s.setFbusy b).rdata = s.rdata := rfl
@[simp] theorem State.setFbusy_step (s : State) (b : Bool) : (s.setFbusy b).step = s.step := rfl
@[simp] theorem State.setFbusy_sreg (s : State) (b : Bool) : (s.setFbusy b).sreg = s.sreg := rfl
@[simp] theorem State.setFbusy_acc (s : State) (b : Bool) : (s.setFbusy b).acc = s.acc := rfl
@[simp] theorem State.setFbusy_lock (s : State) (b : Bool) : (s.setFbusy b).lock = s.lock := rfl
@[simp] theorem State.setFbusy_fbusy (s : State) (b : Bool) : (s.setFbusy b).fbusy = b := rfl
@[simp] theorem State.setFbusy_flash (s : State) (b : Bool) : (s.setFbusy b).flash = s.flash := rfl
@[simp] theorem State.setFbusy_ures (s : State) (b : Bool) : (s.setFbusy b).ures = s.ures := rfl
@[simp] theorem State.setFbusy_inputs (s : State) (b : Bool) : (s.setFbusy b).inputs = s.inputs := rfl
@[simp] theorem State.setFbusy_draws (s : State) (b : Bool) : (s.setFbusy b).draws = s.draws := rfl
@[simp] theorem State.setFbusy_drawn (s : State) (b : Bool) : (s.setFbusy b).drawn = s.drawn := rfl

@[simp] theorem State.setFlash_cfg (s : State) (m : Memory) : (s.setFlash m).cfg = s.cfg := rfl
@[simp] theorem State.setFlash_active (s : State) (m : Memory) : (s.setFlash m).active = s.active := rfl
@[simp] theorem State.setFlash_inactive (s : State) (m : Memory) : (s.setFlash m).inactive = s.inactive := rfl
@[simp] theorem State.setFlash_status (s : State) (m : Memory) : (s.setFlash m).status = s.status := rfl
@[simp] theorem State.setFlash_busy (s : State) (m : Memory) : (s.setFlash m).busy = s.busy := rfl
@[simp] theorem State.setFlash_cmd (s : State) (m : Memory) : (s.setFlash m).cmd = s.cmd := rfl
@[simp] theorem State.setFlash_addr (s : State) (m : Memory) : (s.setFlash m).addr = s.addr := rfl
@[simp] theorem State.setFlash_len (s : State) (m : Memory) : (s.setFlash m).len = s.len := rfl
@[simp] theorem State.setFlash_wdata (s : State) (m : Memory) : (s.setFlash m).wdata = s.wdata := rfl
@[simp] theorem State.setFlash_rdata (s : State) (m : Memory) : (s.setFlash m).rdata = s.rdata := rfl
@[simp] theorem State.setFlash_step (s : State) (m : Memory) : (s.setFlash m).step = s.step := rfl
@[simp] theorem State.setFlash_sreg (s : State) (m : Memory) : (s.setFlash m).sreg = s.sreg := rfl
@[simp] theorem State.setFlash_acc (s : State) (m : Memory) : (s.setFlash m).acc = s.acc := rfl
@[simp] theorem State.setFlash_lock (s : State) (m : Memory) : (s.setFlash m).lock = s.lock := rfl
@[simp] theorem State.setFlash_fbusy (s : State) (m : Memory) : (s.setFlash m).fbusy = s.fbusy := rfl
@[simp] theorem State.setFlash_flash (s : State) (m : Memory) : (s.setFlash m).flash = m := rfl
@[simp] theorem State.setFlash_ures (s : State) (m : Memory) : (s.setFlash m).ures = s.ures := rfl
@[simp] theorem State.setFlash_inputs (s : State) (m : Memory) : (s.setFlash m).inputs = s.inputs := rfl
@[simp] theorem State.setFlash_draws (s : State) (m : Memory) : (s.setFlash m).draws = s.draws := rfl
@[simp] theorem State.setFlash_drawn (s : State) (m : Memory) : (s.setFlash m).drawn = s.drawn := rfl

@[simp] theorem State.setUres_cfg (s : State) (r : MicroResult) : (s.setUres r).cfg = s.cfg := rfl
@[simp] theorem State.setUres_active (s : State) (r : MicroResult) : (s.setUres r).active = s.active := rfl
@[simp] theorem State.setUres_inactive (s : State) (r : MicroResult) : (s.setUres r).inactive = s.inactive := rfl
@[simp] theorem State.setUres_status (s : State) (r : MicroResult) : (s.setUres r).status = s.status := rfl
@[simp] theorem State.setUres_busy (s : State) (r : MicroResult) : (s.setUres r).busy = s.busy := rfl
@[simp] theorem State.setUres_cmd (s : State) (r : MicroResult) : (s.setUres r).cmd = s.cmd := rfl
@[simp] theorem State.setUres_addr (s : State) (r : MicroResult) : (s.setUres r).addr = s.addr := rfl
@[simp] theorem State.setUres_len (s : State) (r : MicroResult) : (s.setUres r).len = s.len := rfl
@[simp] theorem State.setUres_wdata (s : State) (r : MicroResult) : (s.setUres r).wdata = s.wdata := rfl
@[simp] theorem State.setUres_rdata (s : State) (r : MicroResult) : (s.setUres r).rdata = s.rdata := rfl
@[simp] theorem State.setUres_step (s : State) (r : MicroResult) : (s.setUres r).step = s.step := rfl
@[simp] theorem State.setUres_sreg (s : State) (r : MicroResult) : (s.setUres r).sreg = s.sreg := rfl
@[simp] theorem State.setUres_acc (s : State) (r : MicroResult) : (s.setUres r).acc = s.acc := rfl
@[simp] theorem State.setUres_lock (s : State) (r : MicroResult) : (s.setUres r).lock = s.lock := rfl
@[simp] theorem State.setUres_fbusy (s : State) (r : MicroResult) : (s.setUres r).fbusy = s.fbusy := rfl
@[simp] theorem State.setUres_flash (s : State) (r : MicroResult) : (s.setUres r).flash = s.flash := rfl
@[simp] theorem State.setUres_ures (s : State) (r : MicroResult) : (s.setUres r).ures = r := rfl
@[simp] theorem State.setUres_inputs (s : State) (r : MicroResult) : (s.setUres r).inputs = s.inputs := rfl
@[simp] theorem State.setUres_draws (s : State) (r : MicroResult) : (s.setUres r).draws = s.draws := rfl
@[simp] theorem State.setUres_drawn (s : State) (r : MicroResult) : (s.setUres r).drawn = s.drawn := rfl

@[simp] theorem State.setInputs_cfg (s : State) (l : List Input) : (s.setInputs l).cfg = s.cfg := rfl
@[simp] theorem State.setInputs_active (s : State) (l : List Input) : (s.setInputs l).active = s.active := rfl
@[simp] theorem State.setInputs_inactive (s : State) (l : List Input) : (s.setInputs l).inactive = s.inactive := rfl
@[simp] theorem State.setInputs_status (s : State) (l : List Input) : (s.setInputs l).status = s.status := rfl
@[simp] theorem State.setInputs_busy (s : State) (l : List Input) : (s.setInputs l).busy = s.busy := rfl
@[simp] theorem State.setInputs_cmd (s : State) (l : List Input) : (s.setInputs l).cmd = s.cmd := rfl
@[simp] theorem State.setInputs_addr (s : State) (l : List Input) : (s.setInputs l).addr = s.addr := rfl
@[simp] theorem State.setInputs_len (s : State) (l : List Input) : (s.setInputs l).len = s.len := rfl
@[simp] theorem State.setInputs_wdata (s : State) (l : List Input) : (s.setInputs l).wdata = s.wdata := rfl
@[simp] theorem State.setInputs_rdata (s : State) (l : List Input) : (s.setInputs l).rdata = s.rdata := rfl
@[simp] theorem State.setInputs_step (s : State) (l : List Input) : (s.setInputs l).step = s.step := rfl
@[simp] theorem State.setInputs_sreg (s : State) (l : List Input) : (s.setInputs l).sreg = s.sreg := rfl
@[simp] theorem State.setInputs_acc (s : State) (l : List Input) : (s.setInputs l).acc = s.acc := rfl
@[simp] theorem State.setInputs_lock (s : State) (l : List Input) : (s.setInputs l).lock = s.lock := rfl
@[simp] theorem State.setInputs_fbusy (s : State) (l : List Input) : (s.setInputs l).fbusy = s.fbusy := rfl
@[simp] theorem State.setInputs_flash (s : State) (l : List Input) : (s.setInputs l).flash = s.flash := rfl
@[simp] theorem State.setInputs_ures (s : State) (l : List Input) : (s.setInputs l).ures = s.ures := rfl
@[simp] theorem State.setInputs_inputs (s : State) (l : List Input) : (s.setInputs l).inputs = l := rfl
@[simp] theorem State.setInputs_draws (s : State) (l : List Input) : (s.setInputs l).draws = s.draws := rfl
@[simp] theorem State.setInputs_drawn (s : State) (l : List Input) : (s.setInputs l).drawn = s.drawn := rfl

@[simp] theorem State.popDraw_cfg (s : State) : (s.popDraw).cfg = s.cfg := rfl
@[simp] theorem State.popDraw_active (s : State) : (s.popDraw).active = s.active := rfl
@[simp] theorem State.popDraw_inactive (s : State) : (s.popDraw).inactive = s.inactive := rfl
@[simp] theorem State.popDraw_status (s : State) : (s.popDraw).status = s.status := rfl
@[simp] theorem State.popDraw_busy (s : State) : (s.popDraw).busy = s.busy := rfl
@[simp] theorem State.popDraw_cmd (s : State) : (s.popDraw).cmd = s.cmd := rfl
@[simp] theorem State.popDraw_addr (s : State) : (s.popDraw).addr = s.addr := rfl
@[simp] theorem State.popDraw_len (s : State) : (s.popDraw).len = s.len := rfl
@[simp] theorem State.popDraw_wdata (s : State) : (s.popDraw).wdata = s.wdata := rfl
@[simp] theorem State.popDraw_rdata (s : State) : (s.popDraw).rdata = s.rdata := rfl
@[simp] theorem State.popDraw_step (s : State) : (s.popDraw).step = s.step := rfl
@[simp] theorem State.popDraw_sreg (s : State) : (s.popDraw).sreg = s.sreg := rfl
@[simp] theorem State.popDraw_acc (s : State) : (s.popDraw).acc = s.acc := rfl
@[simp] theorem State.popDraw_lock (s : State) : (s.popDraw).lock = s.lock := rfl
@[simp] theorem State.popDraw_fbusy (s : State) : (s.popDraw).fbusy = s.fbusy := rfl
@[simp] theorem State.popDraw_flash (s : State) : (s.popDraw).flash = s.flash := rfl
@[simp] theorem State.popDraw_ures (s : State) : (s.popDraw).ures = s.ures := rfl
@[simp] theorem State.popDraw_inputs (s : State) : (s.popDraw).inputs = s.inputs := rfl
@[simp] theorem State.popDraw_draws (s : State) : (s.popDraw).draws = s.draws.tail := rfl
@[simp] theorem State.popDraw_drawn (s : State) : (s.popDraw).drawn = s.drawn + 1 := rfl

end Sys2Proof.Machine
end

