-- ==== Sys2Proof/Laws/Ops.lean ====
section
/-! SUPPORT. Laws of the shared operations: one lemma per field for each operation on State, halfword reads after a
program, and for each Flash Access Layer call and each command wrapper what it can do. -/

namespace Sys2Proof.Machine

/-- A byte of a list that has it, whatever a missing one would be. -/
theorem byteAt_of_lt (l : List Byte) (i : Nat) (d : Byte) (h : i < l.length) : byteAt l i = l.getD i d := by
  simp [byteAt, h]

@[simp] theorem byteAt_cons_zero (b : Byte) (l : List Byte) : byteAt (b :: l) 0 = b := rfl

/-! ### Fields after an operation -/

@[simp] theorem State.programHalf_cfg (s : State) (a : Nat) (v : Half) : (s.programHalf a v).cfg = s.cfg := rfl
@[simp] theorem State.programHalf_active (s : State) (a : Nat) (v : Half) : (s.programHalf a v).active = s.active := rfl
@[simp] theorem State.programHalf_inactive (s : State) (a : Nat) (v : Half) : (s.programHalf a v).inactive = s.inactive := rfl
@[simp] theorem State.programHalf_status (s : State) (a : Nat) (v : Half) : (s.programHalf a v).status = s.status := rfl
@[simp] theorem State.programHalf_busy (s : State) (a : Nat) (v : Half) : (s.programHalf a v).busy = s.busy := rfl
@[simp] theorem State.programHalf_cmd (s : State) (a : Nat) (v : Half) : (s.programHalf a v).cmd = s.cmd := rfl
@[simp] theorem State.programHalf_addr (s : State) (a : Nat) (v : Half) : (s.programHalf a v).addr = s.addr := rfl
@[simp] theorem State.programHalf_len (s : State) (a : Nat) (v : Half) : (s.programHalf a v).len = s.len := rfl
@[simp] theorem State.programHalf_wdata (s : State) (a : Nat) (v : Half) : (s.programHalf a v).wdata = s.wdata := rfl
@[simp] theorem State.programHalf_rdata (s : State) (a : Nat) (v : Half) : (s.programHalf a v).rdata = s.rdata := rfl
@[simp] theorem State.programHalf_step (s : State) (a : Nat) (v : Half) : (s.programHalf a v).step = s.step := rfl
@[simp] theorem State.programHalf_sreg (s : State) (a : Nat) (v : Half) : (s.programHalf a v).sreg = s.sreg := rfl
@[simp] theorem State.programHalf_acc (s : State) (a : Nat) (v : Half) : (s.programHalf a v).acc = s.acc := rfl
@[simp] theorem State.programHalf_lock (s : State) (a : Nat) (v : Half) : (s.programHalf a v).lock = s.lock := rfl
@[simp] theorem State.programHalf_fbusy (s : State) (a : Nat) (v : Half) : (s.programHalf a v).fbusy = s.fbusy := rfl
@[simp] theorem State.programHalf_flash (s : State) (a : Nat) (v : Half) : (s.programHalf a v).flash = (s.flash.write a (loAddrByte s.cfg.hwOrder v)).write (a + 1) (hiAddrByte s.cfg.hwOrder v) := rfl
@[simp] theorem State.programHalf_ures (s : State) (a : Nat) (v : Half) : (s.programHalf a v).ures = s.ures := rfl
@[simp] theorem State.programHalf_inputs (s : State) (a : Nat) (v : Half) : (s.programHalf a v).inputs = s.inputs := rfl
@[simp] theorem State.programHalf_draws (s : State) (a : Nat) (v : Half) : (s.programHalf a v).draws = s.draws := rfl
@[simp] theorem State.programHalf_drawn (s : State) (a : Nat) (v : Half) : (s.programHalf a v).drawn = s.drawn := rfl

@[simp] theorem State.tearPage_cfg (s : State) (a : Nat) : (s.tearPage a).cfg = s.cfg := rfl
@[simp] theorem State.tearPage_active (s : State) (a : Nat) : (s.tearPage a).active = s.active := rfl
@[simp] theorem State.tearPage_inactive (s : State) (a : Nat) : (s.tearPage a).inactive = s.inactive := rfl
@[simp] theorem State.tearPage_status (s : State) (a : Nat) : (s.tearPage a).status = s.status := rfl
@[simp] theorem State.tearPage_busy (s : State) (a : Nat) : (s.tearPage a).busy = s.busy := rfl
@[simp] theorem State.tearPage_cmd (s : State) (a : Nat) : (s.tearPage a).cmd = s.cmd := rfl
@[simp] theorem State.tearPage_addr (s : State) (a : Nat) : (s.tearPage a).addr = s.addr := rfl
@[simp] theorem State.tearPage_len (s : State) (a : Nat) : (s.tearPage a).len = s.len := rfl
@[simp] theorem State.tearPage_wdata (s : State) (a : Nat) : (s.tearPage a).wdata = s.wdata := rfl
@[simp] theorem State.tearPage_rdata (s : State) (a : Nat) : (s.tearPage a).rdata = s.rdata := rfl
@[simp] theorem State.tearPage_step (s : State) (a : Nat) : (s.tearPage a).step = s.step := rfl
@[simp] theorem State.tearPage_sreg (s : State) (a : Nat) : (s.tearPage a).sreg = s.sreg := rfl
@[simp] theorem State.tearPage_acc (s : State) (a : Nat) : (s.tearPage a).acc = s.acc := rfl
@[simp] theorem State.tearPage_lock (s : State) (a : Nat) : (s.tearPage a).lock = s.lock := rfl
@[simp] theorem State.tearPage_fbusy (s : State) (a : Nat) : (s.tearPage a).fbusy = s.fbusy := rfl
@[simp] theorem State.tearPage_flash (s : State) (a : Nat) : (s.tearPage a).flash = s.flash.writeBytes a s.tornPage := rfl
@[simp] theorem State.tearPage_ures (s : State) (a : Nat) : (s.tearPage a).ures = s.ures := rfl
@[simp] theorem State.tearPage_inputs (s : State) (a : Nat) : (s.tearPage a).inputs = s.inputs := rfl
@[simp] theorem State.tearPage_draws (s : State) (a : Nat) : (s.tearPage a).draws = s.draws.tail := rfl
@[simp] theorem State.tearPage_drawn (s : State) (a : Nat) : (s.tearPage a).drawn = s.drawn + 1 := rfl

@[simp] theorem State.lockFlash_cfg (s : State) : (s.lockFlash).cfg = s.cfg := rfl
@[simp] theorem State.lockFlash_active (s : State) : (s.lockFlash).active = s.active := rfl
@[simp] theorem State.lockFlash_inactive (s : State) : (s.lockFlash).inactive = s.inactive := rfl
@[simp] theorem State.lockFlash_status (s : State) : (s.lockFlash).status = s.status := rfl
@[simp] theorem State.lockFlash_busy (s : State) : (s.lockFlash).busy = s.busy := rfl
@[simp] theorem State.lockFlash_cmd (s : State) : (s.lockFlash).cmd = s.cmd := rfl
@[simp] theorem State.lockFlash_addr (s : State) : (s.lockFlash).addr = s.addr := rfl
@[simp] theorem State.lockFlash_len (s : State) : (s.lockFlash).len = s.len := rfl
@[simp] theorem State.lockFlash_wdata (s : State) : (s.lockFlash).wdata = s.wdata := rfl
@[simp] theorem State.lockFlash_rdata (s : State) : (s.lockFlash).rdata = s.rdata := rfl
@[simp] theorem State.lockFlash_step (s : State) : (s.lockFlash).step = s.step := rfl
@[simp] theorem State.lockFlash_sreg (s : State) : (s.lockFlash).sreg = s.sreg := rfl
@[simp] theorem State.lockFlash_acc (s : State) : (s.lockFlash).acc = s.acc := rfl
@[simp] theorem State.lockFlash_lock (s : State) : (s.lockFlash).lock = .locked := rfl
@[simp] theorem State.lockFlash_fbusy (s : State) : (s.lockFlash).fbusy = s.fbusy := rfl
@[simp] theorem State.lockFlash_flash (s : State) : (s.lockFlash).flash = s.flash := rfl
@[simp] theorem State.lockFlash_ures (s : State) : (s.lockFlash).ures = s.ures := rfl
@[simp] theorem State.lockFlash_inputs (s : State) : (s.lockFlash).inputs = s.inputs := rfl
@[simp] theorem State.lockFlash_draws (s : State) : (s.lockFlash).draws = s.draws := rfl
@[simp] theorem State.lockFlash_drawn (s : State) : (s.lockFlash).drawn = s.drawn := rfl

@[simp] theorem State.complete_cfg (s : State) (k : Status) : (s.complete k).cfg = s.cfg := rfl
@[simp] theorem State.complete_active (s : State) (k : Status) : (s.complete k).active = s.active := rfl
@[simp] theorem State.complete_inactive (s : State) (k : Status) : (s.complete k).inactive = s.inactive := rfl
@[simp] theorem State.complete_status (s : State) (k : Status) : (s.complete k).status = k := rfl
@[simp] theorem State.complete_busy (s : State) (k : Status) : (s.complete k).busy = false := rfl
@[simp] theorem State.complete_cmd (s : State) (k : Status) : (s.complete k).cmd = s.cmd := rfl
@[simp] theorem State.complete_addr (s : State) (k : Status) : (s.complete k).addr = s.addr := rfl
@[simp] theorem State.complete_len (s : State) (k : Status) : (s.complete k).len = s.len := rfl
@[simp] theorem State.complete_wdata (s : State) (k : Status) : (s.complete k).wdata = s.wdata := rfl
@[simp] theorem State.complete_rdata (s : State) (k : Status) : (s.complete k).rdata = s.rdata := rfl
@[simp] theorem State.complete_step (s : State) (k : Status) : (s.complete k).step = .idle := rfl
@[simp] theorem State.complete_sreg (s : State) (k : Status) : (s.complete k).sreg = s.sreg := rfl
@[simp] theorem State.complete_acc (s : State) (k : Status) : (s.complete k).acc = s.acc := rfl
@[simp] theorem State.complete_lock (s : State) (k : Status) : (s.complete k).lock = s.lock := rfl
@[simp] theorem State.complete_fbusy (s : State) (k : Status) : (s.complete k).fbusy = s.fbusy := rfl
@[simp] theorem State.complete_flash (s : State) (k : Status) : (s.complete k).flash = s.flash := rfl
@[simp] theorem State.complete_ures (s : State) (k : Status) : (s.complete k).ures = s.ures := rfl
@[simp] theorem State.complete_inputs (s : State) (k : Status) : (s.complete k).inputs = s.inputs := rfl
@[simp] theorem State.complete_draws (s : State) (k : Status) : (s.complete k).draws = s.draws := rfl
@[simp] theorem State.complete_drawn (s : State) (k : Status) : (s.complete k).drawn = s.drawn := rfl

@[simp] theorem State.accept_cfg (s : State) (c : Byte) : (s.accept c).cfg = s.cfg := rfl
@[simp] theorem State.accept_active (s : State) (c : Byte) : (s.accept c).active = s.active := rfl
@[simp] theorem State.accept_inactive (s : State) (c : Byte) : (s.accept c).inactive = s.inactive := rfl
@[simp] theorem State.accept_status (s : State) (c : Byte) : (s.accept c).status = s.status := rfl
@[simp] theorem State.accept_busy (s : State) (c : Byte) : (s.accept c).busy = true := rfl
@[simp] theorem State.accept_cmd (s : State) (c : Byte) : (s.accept c).cmd = c := rfl
@[simp] theorem State.accept_addr (s : State) (c : Byte) : (s.accept c).addr = s.addr := rfl
@[simp] theorem State.accept_len (s : State) (c : Byte) : (s.accept c).len = s.len := rfl
@[simp] theorem State.accept_wdata (s : State) (c : Byte) : (s.accept c).wdata = s.wdata := rfl
@[simp] theorem State.accept_rdata (s : State) (c : Byte) : (s.accept c).rdata = s.rdata := rfl
@[simp] theorem State.accept_step (s : State) (c : Byte) : (s.accept c).step = if c = 0x03 then .idle else Config.freeStep s.drawn := rfl
@[simp] theorem State.accept_sreg (s : State) (c : Byte) : (s.accept c).sreg = s.sreg := rfl
@[simp] theorem State.accept_acc (s : State) (c : Byte) : (s.accept c).acc = s.acc := rfl
@[simp] theorem State.accept_lock (s : State) (c : Byte) : (s.accept c).lock = s.lock := rfl
@[simp] theorem State.accept_fbusy (s : State) (c : Byte) : (s.accept c).fbusy = s.fbusy := rfl
@[simp] theorem State.accept_flash (s : State) (c : Byte) : (s.accept c).flash = s.flash := rfl
@[simp] theorem State.accept_ures (s : State) (c : Byte) : (s.accept c).ures = s.ures := rfl
@[simp] theorem State.accept_inputs (s : State) (c : Byte) : (s.accept c).inputs = s.inputs := rfl
@[simp] theorem State.accept_draws (s : State) (c : Byte) : (s.accept c).draws = s.draws := rfl
@[simp] theorem State.accept_drawn (s : State) (c : Byte) : (s.accept c).drawn = s.drawn := rfl

@[simp] theorem State.powerCycle_cfg (s : State) : (s.powerCycle).cfg = s.cfg := rfl
@[simp] theorem State.powerCycle_active (s : State) : (s.powerCycle).active = .none := rfl
@[simp] theorem State.powerCycle_inactive (s : State) : (s.powerCycle).inactive = .none := rfl
@[simp] theorem State.powerCycle_status (s : State) : (s.powerCycle).status = .ok := rfl
@[simp] theorem State.powerCycle_busy (s : State) : (s.powerCycle).busy = false := rfl
@[simp] theorem State.powerCycle_cmd (s : State) : (s.powerCycle).cmd = 0 := rfl
@[simp] theorem State.powerCycle_addr (s : State) : (s.powerCycle).addr = 0 := rfl
@[simp] theorem State.powerCycle_len (s : State) : (s.powerCycle).len = 0 := rfl
@[simp] theorem State.powerCycle_wdata (s : State) : (s.powerCycle).wdata = [] := rfl
@[simp] theorem State.powerCycle_rdata (s : State) : (s.powerCycle).rdata = [] := rfl
@[simp] theorem State.powerCycle_step (s : State) : (s.powerCycle).step = .idle := rfl
@[simp] theorem State.powerCycle_sreg (s : State) : (s.powerCycle).sreg = 0 := rfl
@[simp] theorem State.powerCycle_acc (s : State) : (s.powerCycle).acc = 0 := rfl
@[simp] theorem State.powerCycle_lock (s : State) : (s.powerCycle).lock = .locked := rfl
@[simp] theorem State.powerCycle_fbusy (s : State) : (s.powerCycle).fbusy = false := rfl
@[simp] theorem State.powerCycle_flash (s : State) : (s.powerCycle).flash = s.flash := rfl
@[simp] theorem State.powerCycle_ures (s : State) : (s.powerCycle).ures = .none := rfl
@[simp] theorem State.powerCycle_inputs (s : State) : (s.powerCycle).inputs = s.inputs := rfl
@[simp] theorem State.powerCycle_draws (s : State) : (s.powerCycle).draws = s.draws := rfl
@[simp] theorem State.powerCycle_drawn (s : State) : (s.powerCycle).drawn = s.drawn := rfl

@[simp] theorem State.takeReset_cfg (s : State) : (s.takeReset).cfg = s.cfg := rfl
@[simp] theorem State.takeReset_active (s : State) : (s.takeReset).active = .none := rfl
@[simp] theorem State.takeReset_inactive (s : State) : (s.takeReset).inactive = .none := rfl
@[simp] theorem State.takeReset_status (s : State) : (s.takeReset).status = .ok := rfl
@[simp] theorem State.takeReset_busy (s : State) : (s.takeReset).busy = false := rfl
@[simp] theorem State.takeReset_cmd (s : State) : (s.takeReset).cmd = 0 := rfl
@[simp] theorem State.takeReset_addr (s : State) : (s.takeReset).addr = 0 := rfl
@[simp] theorem State.takeReset_len (s : State) : (s.takeReset).len = 0 := rfl
@[simp] theorem State.takeReset_wdata (s : State) : (s.takeReset).wdata = [] := rfl
@[simp] theorem State.takeReset_rdata (s : State) : (s.takeReset).rdata = [] := rfl
@[simp] theorem State.takeReset_step (s : State) : (s.takeReset).step = .idle := rfl
@[simp] theorem State.takeReset_sreg (s : State) : (s.takeReset).sreg = 0 := rfl
@[simp] theorem State.takeReset_acc (s : State) : (s.takeReset).acc = 0 := rfl
@[simp] theorem State.takeReset_lock (s : State) : (s.takeReset).lock = .locked := rfl
@[simp] theorem State.takeReset_fbusy (s : State) : (s.takeReset).fbusy = false := rfl
@[simp] theorem State.takeReset_flash (s : State) : (s.takeReset).flash = s.flash := rfl
@[simp] theorem State.takeReset_ures (s : State) : (s.takeReset).ures = .none := rfl
@[simp] theorem State.takeReset_inputs (s : State) : (s.takeReset).inputs = s.inputs.tail := rfl
@[simp] theorem State.takeReset_draws (s : State) : (s.takeReset).draws = s.draws := rfl
@[simp] theorem State.takeReset_drawn (s : State) : (s.takeReset).drawn = s.drawn := rfl

/-- The abort path (R218) writes `LOCK`, `STEP`, `STATUS` and `BUSY` only. -/
theorem State.abort_eq (s : State) (k : ErrorKind) :
    s.abort k =
      { s with
        lock := if s.cmd = 0x03 ∧ 2 ≤ stepNumber s.step then .locked else s.lock
        step := .idle
        status := .error k
        busy := false } := by
  unfold State.abort
  split <;> rfl

/-! ### Halfwords -/

/-- The two bytes of a halfword compose to it in either order (R18). -/
@[simp] theorem composeHalf_bytes (o : ByteOrder) (v : Half) :
    composeHalf o (loAddrByte o v) (hiAddrByte o v) = v := by
  cases o <;> (simp only [composeHalf, loAddrByte, hiAddrByte, concat8, bitField]; bv_omega)

@[simp] theorem loAddrByte_compose (o : ByteOrder) (b0 b1 : Byte) :
    loAddrByte o (composeHalf o b0 b1) = b0 := by
  cases o <;> (simp only [composeHalf, loAddrByte, concat8, bitField]; bv_omega)

@[simp] theorem hiAddrByte_compose (o : ByteOrder) (b0 b1 : Byte) :
    hiAddrByte o (composeHalf o b0 b1) = b1 := by
  cases o <;> (simp only [composeHalf, hiAddrByte, concat8, bitField]; bv_omega)

theorem State.readU8_eq (s : State) (a : Nat) : s.readU8 a = s.flash.read a := rfl

theorem State.readU16_eq (s : State) (a : Nat) :
    s.readU16 a = composeHalf s.cfg.hwOrder (s.flash.read a) (s.flash.read (a + 1)) := rfl

/-- Every byte of flash after a halfword is programmed. -/
theorem State.read_programHalf (s : State) (a b : Nat) (v : Half) :
    (s.programHalf a v).flash.read b =
      if b = a then loAddrByte s.cfg.hwOrder v
      else if b = a + 1 then hiAddrByte s.cfg.hwOrder v
      else s.flash.read b := by
  simp only [State.programHalf_flash, Memory.read_write]
  by_cases h1 : b = a <;> by_cases h2 : b = a + 1 <;> simp_all

/-- The read-back of R61: a programmed halfword reads as it was programmed. -/
@[simp] theorem State.readU16_programHalf_self (s : State) (a : Nat) (v : Half) :
    (s.programHalf a v).readU16 a = v := by
  simp [State.readU16_eq, State.read_programHalf, -State.programHalf_flash]

/-- A halfword that shares no byte with the programmed one reads as before. -/
theorem State.readU16_programHalf_other (s : State) (a b : Nat) (v : Half) (h : b + 1 < a ∨ a + 1 < b) :
    (s.programHalf a v).readU16 b = s.readU16 b := by
  have h1 : b ≠ a := by omega
  have h2 : b ≠ a + 1 := by omega
  have h3 : b + 1 ≠ a := by omega
  have h4 : b ≠ a := by omega
  simp [State.readU16_eq, State.read_programHalf, h1, h2, h3, -State.programHalf_flash]

/-- A torn halfword is in `torn(v)` (R62). -/
theorem State.tornHalf_mem (s : State) (v : Half) : s.tornHalf v &&& v = v := by
  unfold State.tornHalf
  ext i hi
  simp only [BitVec.getElem_and, BitVec.getElem_or]
  cases v[i] <;> simp

@[simp] theorem State.tornPage_length (s : State) : s.tornPage.length = s.cfg.pageSize := by
  simp [State.tornPage]

/-! ### Draws -/

theorem State.nextDraw_eq (s : State) : s.nextDraw = s.draws.getD 0 (Config.freeDraw s.drawn) := by
  unfold State.nextDraw
  cases s.draws <;> rfl

/-! ### Flash Access Layer calls -/

theorem noCompletion_finite {α : Type} (s : State) (h : s.cfg.waitBudget = .finite) :
    noCompletion (α := α) s = .raised .timeout s := by
  simp [noCompletion, h]

theorem noCompletion_infinite {α : Type} (s : State) (h : s.cfg.waitBudget = .infinite) :
    noCompletion (α := α) s = .hung (s.setFbusy true) := by
  simp [noCompletion, h]

/-- Everything `write_u16` can do (R61). -/
theorem writeU16_cases (a : Nat) (v : Half) (s : State) :
    ((s.lock = .locked ∨ s.readU16 a ≠ 0xFFFF) ∧ writeU16 a v s = .done false s) ∨
    (s.lock ≠ .locked ∧ s.readU16 a = 0xFFFF ∧
      ((s.nextDraw.kind = .doneOk ∧ writeU16 a v s = .done true (s.popDraw.programHalf a v)) ∨
       (s.nextDraw.kind = .doneErr ∧
          writeU16 a v s = .done false (s.popDraw.programHalf a (s.tornHalf v))) ∨
       (s.nextDraw.kind = .noCompletion ∧
          writeU16 a v s = noCompletion (s.popDraw.programHalf a (s.tornHalf v))) ∨
       (s.nextDraw.kind = .cutBefore ∧ writeU16 a v s = .powerLost s.popDraw) ∨
       (s.nextDraw.kind = .cutDuring ∧
          writeU16 a v s = .powerLost (s.popDraw.programHalf a (s.tornHalf v))))) := by
  by_cases hl : s.lock = .locked
  · exact .inl ⟨.inl hl, by simp [writeU16, hl]⟩
  · by_cases he : s.readU16 a = 0xFFFF
    · refine .inr ⟨hl, he, ?_⟩
      cases hk : s.nextDraw.kind <;> simp [writeU16, hl, he, hk]
    · exact .inl ⟨.inr he, by rw [writeU16, if_neg hl, if_pos he]⟩

/-- `write_u16` on an unlocked, erased halfword with no hardware error (R61). -/
theorem writeU16_ok (a : Nat) (v : Half) (s : State) (hl : s.lock = .unlocked)
    (he : s.readU16 a = 0xFFFF) (hk : s.nextDraw.kind = .doneOk) :
    writeU16 a v s = .done true (s.popDraw.programHalf a v) := by
  simp [writeU16, hl, he, hk]

theorem writeU16_locked (a : Nat) (v : Half) (s : State) (hl : s.lock = .locked) :
    writeU16 a v s = .done false s := by
  simp [writeU16, hl]

theorem writeU16_notErased (a : Nat) (v : Half) (s : State) (he : s.readU16 a ≠ 0xFFFF) :
    writeU16 a v s = .done false s := by
  by_cases hl : s.lock = .locked
  · rw [writeU16, if_pos hl]
  · rw [writeU16, if_neg hl, if_pos he]

/-- Everything `erase_page` can do (R63). -/
theorem erasePage_cases (a : Nat) (s : State) :
    (s.nextDraw.kind = .doneOk ∧
      erasePage a s = .done true (s.popDraw.setFlash (s.flash.erase a s.cfg.pageSize))) ∨
    (s.nextDraw.kind = .doneErr ∧ erasePage a s = .done false (s.tearPage a)) ∨
    (s.nextDraw.kind = .noCompletion ∧ erasePage a s = noCompletion (s.tearPage a)) ∨
    (s.nextDraw.kind = .cutBefore ∧ erasePage a s = .powerLost s.popDraw) ∨
    (s.nextDraw.kind = .cutDuring ∧ erasePage a s = .powerLost (s.tearPage a)) := by
  cases hk : s.nextDraw.kind <;> simp [erasePage, hk]

/-- Everything `unlock()` can do (R66). -/
theorem unlockFlash_cases (s : State) :
    (s.nextDraw.kind = .doneOk ∧ unlockFlash s = .done .unlocked (s.popDraw.setLock .unlocked)) ∨
    ((s.nextDraw.kind = .doneErr ∨ s.nextDraw.kind = .noCompletion) ∧
      unlockFlash s = .done .locked s.popDraw) ∨
    ((s.nextDraw.kind = .cutBefore ∨ s.nextDraw.kind = .cutDuring) ∧
      unlockFlash s = .powerLost s.popDraw) := by
  cases hk : s.nextDraw.kind <;> simp [unlockFlash, hk]

/-! ### Commands -/

theorem State.refusal_eq_none (s : State) :
    s.refusal = none ↔ s.busy = false ∧ legalConfig s.cfg = true := by
  unfold State.refusal
  cases s.busy <;> cases legalConfig s.cfg <;> simp

/-- A host command answers a next state exactly when the block is free and its configuration legal (R8, R100). -/
theorem hostCommand_eq_next (cmd : Byte) (latch : State → State) (body : State → Res Unit) (s t : State) :
    hostCommand cmd latch body s = .next t ↔
      s.busy = false ∧ legalConfig s.cfg = true ∧ t = (body (latch (s.accept cmd))).settle := by
  unfold hostCommand
  cases hr : s.refusal with
  | none =>
    obtain ⟨hb, hc⟩ := (State.refusal_eq_none s).mp hr
    simp [hb, hc, eq_comm]
  | some r =>
    have : ¬ (s.busy = false ∧ legalConfig s.cfg = true) := by
      rw [← State.refusal_eq_none, hr]; simp
    simp; tauto

/-- A micro-operation with operands in their domain answers a next state under the same condition. -/
theorem microOperation_eq_next (run : State → Res MicroResult) (s t : State) :
    microOperation (some run) s = .next t ↔
      s.busy = false ∧ legalConfig s.cfg = true ∧ t = (run s).settleMicro := by
  unfold microOperation
  cases hr : s.refusal with
  | none =>
    obtain ⟨hb, hc⟩ := (State.refusal_eq_none s).mp hr
    simp [hb, hc, eq_comm]
  | some r =>
    have : ¬ (s.busy = false ∧ legalConfig s.cfg = true) := by
      rw [← State.refusal_eq_none, hr]; simp
    simp; tauto

theorem onPage_designatorOf (p : Page) (run : Page → State → Res MicroResult) :
    onPage (designatorOf p) run = some (run p) := by
  cases p <;> rfl

end Sys2Proof.Machine
end

