-- ==== Sys2Proof/Laws/Course.lean ====
section
/-! SUPPORT. The course of a command: the state each part ends in, and how a relation between states that every part
keeps passes through `andThen` and `forEach`; what program and erase leave unchanged. -/

namespace Sys2Proof.Machine

/-- The state a part ends in, however it ends. -/
def Res.state {α : Type} : Res α → State
  | .done _ s => s
  | .raised _ s => s
  | .hung s => s
  | .powerLost s => s

@[simp] theorem Res.state_done {α : Type} (a : α) (s : State) : (Res.done a s).state = s := rfl
@[simp] theorem Res.state_raised {α : Type} (k : ErrorKind) (s : State) :
    (Res.raised (α := α) k s).state = s := rfl
@[simp] theorem Res.state_hung {α : Type} (s : State) : (Res.hung (α := α) s).state = s := rfl
@[simp] theorem Res.state_powerLost {α : Type} (s : State) : (Res.powerLost (α := α) s).state = s := rfl

@[simp] theorem Res.andThen_done {α β : Type} (a : α) (s : State) (k : α → State → Res β) :
    (Res.done a s).andThen k = k a s := rfl
@[simp] theorem Res.andThen_raised {α β : Type} (e : ErrorKind) (s : State) (k : α → State → Res β) :
    (Res.raised e s).andThen k = .raised e s := rfl
@[simp] theorem Res.andThen_hung {α β : Type} (s : State) (k : α → State → Res β) :
    (Res.hung s).andThen k = .hung s := rfl
@[simp] theorem Res.andThen_powerLost {α β : Type} (s : State) (k : α → State → Res β) :
    (Res.powerLost s).andThen k = .powerLost s := rfl

@[simp] theorem Res.orProgramError_done_true (s : State) :
    (Res.done true s).orProgramError = .done () s := rfl
@[simp] theorem Res.orProgramError_done_false (s : State) :
    (Res.done false s).orProgramError = .raised .hardwareProgramError s := rfl
@[simp] theorem Res.orProgramError_raised (k : ErrorKind) (s : State) :
    (Res.raised k s).orProgramError = .raised k s := rfl
@[simp] theorem Res.orProgramError_hung (s : State) : (Res.hung s).orProgramError = .hung s := rfl
@[simp] theorem Res.orProgramError_powerLost (s : State) :
    (Res.powerLost s).orProgramError = .powerLost s := rfl

@[simp] theorem Res.state_orProgramError (r : Res Bool) : r.orProgramError.state = r.state := by
  rcases r with ⟨_ | _, s⟩ | _ | _ | _ <;> rfl

@[simp] theorem Res.forEach_nil {α : Type} (part : α → State → Res Unit) (s : State) :
    Res.forEach part [] s = .done () s := rfl
@[simp] theorem Res.forEach_cons {α : Type} (part : α → State → Res Unit) (x : α) (l : List α) (s : State) :
    Res.forEach part (x :: l) s = (part x s).andThen fun _ t => Res.forEach part l t := rfl

/-- A transitive relation from the start passes through a sequence of two parts. -/
theorem Res.rel_andThen {α β : Type} {R : State → State → Prop}
    (trans : ∀ x y z, R x y → R y z → R x z) {s : State} {r : Res α} {k : α → State → Res β}
    (hr : R s r.state) (hk : ∀ a t, r = .done a t → R t (k a t).state) :
    R s (r.andThen k).state := by
  cases r with
  | done a t => exact trans _ _ _ hr (hk a t rfl)
  | raised e t => exact hr
  | hung t => exact hr
  | powerLost t => exact hr

/-- A reflexive and transitive relation that the part keeps passes through all its turns. -/
theorem Res.rel_forEach {α : Type} {R : State → State → Prop} (refl : ∀ x, R x x)
    (trans : ∀ x y z, R x y → R y z → R x z) {part : α → State → Res Unit} {l : List α}
    (hp : ∀ x ∈ l, ∀ s, R s (part x s).state) (s : State) :
    R s (Res.forEach part l s).state := by
  induction l generalizing s with
  | nil => exact refl s
  | cons x rest ih =>
    rw [Res.forEach_cons]
    exact Res.rel_andThen trans (hp x (by simp) s) fun _ t _ => ih (fun y hy => hp y (by simp [hy])) t

/-! ### What program and erase leave unchanged -/

/-- Nothing but flash contents, draws and `FBUSY` differs. -/
def FlashOnly (s t : State) : Prop :=
  t = { s with flash := t.flash, draws := t.draws, drawn := t.drawn, fbusy := t.fbusy }

theorem FlashOnly.refl (s : State) : FlashOnly s s := rfl

theorem FlashOnly.trans (s t u : State) (h1 : FlashOnly s t) (h2 : FlashOnly t u) : FlashOnly s u := by
  unfold FlashOnly at *
  rw [h2, h1]

theorem FlashOnly.cfg {s t : State} (h : FlashOnly s t) : t.cfg = s.cfg := by rw [h]
theorem FlashOnly.lock {s t : State} (h : FlashOnly s t) : t.lock = s.lock := by rw [h]
theorem FlashOnly.active {s t : State} (h : FlashOnly s t) : t.active = s.active := by rw [h]
theorem FlashOnly.inactive {s t : State} (h : FlashOnly s t) : t.inactive = s.inactive := by rw [h]
theorem FlashOnly.step {s t : State} (h : FlashOnly s t) : t.step = s.step := by rw [h]
theorem FlashOnly.cmd {s t : State} (h : FlashOnly s t) : t.cmd = s.cmd := by rw [h]
theorem FlashOnly.busy {s t : State} (h : FlashOnly s t) : t.busy = s.busy := by rw [h]

theorem noCompletion_flashOnly {α : Type} (s : State) : FlashOnly s (noCompletion (α := α) s).state := by
  unfold noCompletion
  cases s.cfg.waitBudget <;> rfl

theorem writeU16_flashOnly (a : Nat) (v : Half) (s : State) : FlashOnly s (writeU16 a v s).state := by
  rcases writeU16_cases a v s with ⟨_, h⟩ | ⟨_, _, ⟨_, h⟩ | ⟨_, h⟩ | ⟨_, h⟩ | ⟨_, h⟩ | ⟨_, h⟩⟩ <;> rw [h]
  · rfl
  · rfl
  · rfl
  · exact FlashOnly.trans s (s.popDraw.programHalf a (s.tornHalf v)) _ rfl (noCompletion_flashOnly _)
  · rfl
  · rfl

theorem erasePage_flashOnly (a : Nat) (s : State) : FlashOnly s (erasePage a s).state := by
  rcases erasePage_cases a s with ⟨_, h⟩ | ⟨_, h⟩ | ⟨_, h⟩ | ⟨_, h⟩ | ⟨_, h⟩ <;> rw [h]
  · rfl
  · rfl
  · exact FlashOnly.trans s (s.tearPage a) _ rfl (noCompletion_flashOnly _)
  · rfl
  · rfl

theorem setField_flashOnly (p : Page) (target : PageState) (k : Nat) (s : State) :
    FlashOnly s (setField p target k s).state := by
  unfold setField
  split
  · split <;> rfl
  · split
    · rw [Res.state_orProgramError]; exact writeU16_flashOnly _ _ _
    · rfl

/-- `SET_STATE` writes no register (R120). -/
theorem setPageState_flashOnly (p : Page) (target : PageState) (s : State) :
    FlashOnly s (setPageState p target s).state :=
  Res.rel_forEach FlashOnly.refl FlashOnly.trans (fun k _ s => setField_flashOnly p target k s) s

theorem streamHalf_flashOnly (a b : Page) (off : Nat) (s : State) :
    FlashOnly s (streamHalf a b off s).state := by
  unfold streamHalf
  split
  · rw [Res.state_orProgramError]; exact writeU16_flashOnly _ _ _
  · rfl

/-- Flash reads as before outside the addresses of `S`. -/
def SameOutside (S : Nat → Prop) (s t : State) : Prop := ∀ a, ¬ S a → t.flash.read a = s.flash.read a

theorem SameOutside.refl (S : Nat → Prop) (s : State) : SameOutside S s s := fun _ _ => rfl

theorem SameOutside.trans (S : Nat → Prop) (s t u : State) (h1 : SameOutside S s t)
    (h2 : SameOutside S t u) : SameOutside S s u := fun a ha => (h2 a ha).trans (h1 a ha)

theorem noCompletion_flash {α : Type} (s : State) : (noCompletion (α := α) s).state.flash = s.flash := by
  unfold noCompletion
  cases s.cfg.waitBudget <;> rfl

/-- A program changes at most the two bytes of its halfword (R61). -/
theorem writeU16_sameOutside (a : Nat) (v : Half) (s : State) :
    SameOutside (fun b => b = a ∨ b = a + 1) s (writeU16 a v s).state := by
  have key : ∀ h : Half, SameOutside (fun b => b = a ∨ b = a + 1) s (s.popDraw.programHalf a h) := by
    intro h b hb
    rw [State.read_programHalf, if_neg (fun e => hb (.inl e)), if_neg (fun e => hb (.inr e))]
    rfl
  rcases writeU16_cases a v s with ⟨_, h⟩ | ⟨_, _, ⟨_, h⟩ | ⟨_, h⟩ | ⟨_, h⟩ | ⟨_, h⟩ | ⟨_, h⟩⟩ <;> rw [h]
  · exact SameOutside.refl _ s
  · exact key v
  · exact key _
  · intro b hb; rw [noCompletion_flash]; exact key _ b hb
  · exact fun _ _ => rfl
  · exact key _

/-- A program only clears bits (R33): it starts from an erased halfword. -/
theorem writeU16_clears (a : Nat) (v : Half) (s : State) (b : Nat) :
    (writeU16 a v s).state.flash.read b &&& s.flash.read b = (writeU16 a v s).state.flash.read b := by
  have ones : s.readU16 a = 0xFFFF → s.flash.read a = 0xFF ∧ s.flash.read (a + 1) = 0xFF := by
    intro h
    have hl := congrArg (loAddrByte s.cfg.hwOrder) h
    have hh := congrArg (hiAddrByte s.cfg.hwOrder) h
    rw [State.readU16_eq, loAddrByte_compose] at hl
    rw [State.readU16_eq, hiAddrByte_compose] at hh
    rw [hl, hh]
    cases s.cfg.hwOrder <;> decide
  have key : s.readU16 a = 0xFFFF → ∀ h : Half,
      (s.popDraw.programHalf a h).flash.read b &&& s.flash.read b =
        (s.popDraw.programHalf a h).flash.read b := by
    intro he h
    obtain ⟨h0, h1⟩ := ones he
    rw [State.read_programHalf]
    by_cases hb : b = a
    · subst hb; rw [if_pos rfl, h0]; exact BitVec.and_allOnes
    · by_cases hb' : b = a + 1
      · subst hb'; rw [if_neg hb, if_pos rfl, h1]; exact BitVec.and_allOnes
      · rw [if_neg hb, if_neg hb']; exact BitVec.and_self
  rcases writeU16_cases a v s with ⟨_, h⟩ | ⟨_, he, ⟨_, h⟩ | ⟨_, h⟩ | ⟨_, h⟩ | ⟨_, h⟩ | ⟨_, h⟩⟩ <;> rw [h]
  · exact BitVec.and_self
  · exact key he v
  · exact key he _
  · rw [noCompletion_flash]; exact key he _
  · exact BitVec.and_self
  · exact key he _

/-- An erase changes at most the bytes of its page (R63, R64). -/
theorem erasePage_sameOutside (a : Nat) (s : State) :
    SameOutside (fun b => a ≤ b ∧ b < a + s.cfg.pageSize) s (erasePage a s).state := by
  have torn : SameOutside (fun b => a ≤ b ∧ b < a + s.cfg.pageSize) s (s.tearPage a) := by
    intro b hb
    rw [State.tearPage_flash, Memory.read_writeBytes, State.tornPage_length, if_neg hb]
  rcases erasePage_cases a s with ⟨_, h⟩ | ⟨_, h⟩ | ⟨_, h⟩ | ⟨_, h⟩ | ⟨_, h⟩ <;> rw [h]
  · intro b hb; simp [Memory.read_erase, hb]
  · exact torn
  · intro b hb; rw [noCompletion_flash]; exact torn b hb
  · exact fun _ _ => rfl
  · exact torn

/-! ### The canonical form through the calls -/

theorem State.wf_programHalf (s : State) (a : Nat) (v : Half) (h : s.flash.wf = true) :
    (s.programHalf a v).flash.wf = true :=
  Memory.wf_write _ _ _ (Memory.wf_write _ _ _ h)

theorem writeU16_wf (a : Nat) (v : Half) (s : State) (hs : s.flash.wf = true) :
    (writeU16 a v s).state.flash.wf = true := by
  rcases writeU16_cases a v s with ⟨_, h⟩ | ⟨_, _, ⟨_, h⟩ | ⟨_, h⟩ | ⟨_, h⟩ | ⟨_, h⟩ | ⟨_, h⟩⟩ <;> rw [h]
  · exact hs
  · exact State.wf_programHalf s.popDraw _ _ hs
  · exact State.wf_programHalf s.popDraw _ _ hs
  · rw [noCompletion_flash]; exact State.wf_programHalf s.popDraw _ _ hs
  · exact hs
  · exact State.wf_programHalf s.popDraw _ _ hs

theorem erasePage_wf (a : Nat) (s : State) (hs : s.flash.wf = true) :
    (erasePage a s).state.flash.wf = true := by
  rcases erasePage_cases a s with ⟨_, h⟩ | ⟨_, h⟩ | ⟨_, h⟩ | ⟨_, h⟩ | ⟨_, h⟩ <;> rw [h]
  · exact Memory.wf_erase _ _ _ hs
  · exact Memory.wf_writeBytes _ _ _ hs
  · rw [noCompletion_flash]; exact Memory.wf_writeBytes _ _ _ hs
  · exact hs
  · exact Memory.wf_writeBytes _ _ _ hs

end Sys2Proof.Machine
end

