-- ==== Sys2Proof/Laws/Codec.lean ====
section
/-! SUPPORT. Laws of the geometry and of the codec: where the fields of a page lie in a legal configuration, and when a
page decodes to a canonical state. -/

namespace Sys2Proof.Machine

/-! ### Geometry -/

/-- The constraints of R7, R8 and D6, one by one. -/
theorem legalConfig_iff (c : Config) :
    legalConfig c = true ↔
      c.pageSize % 2 = 0 ∧ 12 ≤ c.pageSize ∧ c.page1Addr % 2 = 0 ∧ c.page2Addr % 2 = 0 ∧
      (c.page1Addr + c.pageSize ≤ c.page2Addr ∨ c.page2Addr + c.pageSize ≤ c.page1Addr) ∧
      c.page1Addr + c.pageSize ≤ 2 ^ c.addrWidth ∧ c.page2Addr + c.pageSize ≤ 2 ^ c.addrWidth := by
  simp [legalConfig]

/-- The bases of the two pages of a legal configuration are a page apart. -/
theorem base_disjoint (c : Config) (h : legalConfig c = true) (p : Page) :
    base c p + c.pageSize ≤ base c (otherPage p) ∨ base c (otherPage p) + c.pageSize ≤ base c p := by
  obtain ⟨_, _, _, _, hd, _, _⟩ := (legalConfig_iff c).mp h
  cases p <;> simp only [base, otherPage] <;> omega

theorem payloadSize_add (c : Config) (h : legalConfig c = true) : payloadSize c + 10 = c.pageSize := by
  obtain ⟨_, h12, _⟩ := (legalConfig_iff c).mp h
  simp only [payloadSize]; omega

/-- No address is in both pages. -/
theorem not_inPage_both (c : Config) (h : legalConfig c = true) (p : Page) (a : Nat)
    (h1 : base c p ≤ a ∧ a < base c p + c.pageSize)
    (h2 : base c (otherPage p) ≤ a ∧ a < base c (otherPage p) + c.pageSize) : False := by
  have := base_disjoint c h p; omega

@[simp] theorem otherPage_otherPage (p : Page) : otherPage (otherPage p) = p := by cases p <;> rfl

@[simp] theorem pageOf_designatorOf (p : Page) : pageOf (designatorOf p) = some p := by cases p <;> rfl

theorem pageOf_eq_some (d : Designator) (p : Page) : pageOf d = some p ↔ d = designatorOf p := by
  cases d <;> cases p <;> simp [pageOf, designatorOf]

theorem designatorOf_ne_none (p : Page) : designatorOf p ≠ .none := by cases p <;> simp [designatorOf]

/-! ### State words -/

/-- Four fields make a canonical pattern exactly when each is the pattern's (R91, R92). -/
theorem decode_fields (f0 f1 f2 f3 : Half) (t : PageState) (ht : t ≠ .corrupt) :
    decodeStateWord (concat32 (concat16 f0 f1) (concat16 f2 f3)) = t ↔
      f0 = targetField t 0 ∧ f1 = targetField t 1 ∧ f2 = targetField t 2 ∧ f3 = targetField t 3 := by
  have split4 : ∀ g0 g1 g2 g3 : Half,
      concat32 (concat16 f0 f1) (concat16 f2 f3) = concat32 (concat16 g0 g1) (concat16 g2 g3) ↔
        f0 = g0 ∧ f1 = g1 ∧ f2 = g2 ∧ f3 = g3 := by
    intro g0 g1 g2 g3
    constructor
    · intro h
      simp only [concat32, concat16] at h
      refine ⟨?_, ?_, ?_, ?_⟩ <;> bv_omega
    · rintro ⟨rfl, rfl, rfl, rfl⟩; rfl
  have hE : (0xFFFF_FFFF_FFFF_FFFF : StateWord) =
      concat32 (concat16 0xFFFF 0xFFFF) (concat16 0xFFFF 0xFFFF) := by decide
  have hW : (0x0000_FFFF_FFFF_FFFF : StateWord) =
      concat32 (concat16 0x0000 0xFFFF) (concat16 0xFFFF 0xFFFF) := by decide
  have hV : (0x0000_0000_FFFF_FFFF : StateWord) =
      concat32 (concat16 0x0000 0x0000) (concat16 0xFFFF 0xFFFF) := by decide
  have hC : (0x0000_0000_0000_FFFF : StateWord) =
      concat32 (concat16 0x0000 0x0000) (concat16 0x0000 0xFFFF) := by decide
  have hI : (0x0000_0000_0000_0000 : StateWord) =
      concat32 (concat16 0x0000 0x0000) (concat16 0x0000 0x0000) := by decide
  have z : ¬ (0 : Half) = 0xFFFF := by decide
  simp only [decodeStateWord, hE, hW, hV, hC, hI, split4]
  cases t
  case corrupt => exact absurd rfl ht
  all_goals
    simp only [targetField, stateNumber, Nat.reduceLT, if_true, if_false, Nat.not_lt_zero]
    constructor
    · intro h; split_ifs at h; all_goals simp_all
    · rintro ⟨rfl, rfl, rfl, rfl⟩; simp_all

/-- A page decodes to a canonical state exactly when each of its fields is that state's (R91, R92, R124). -/
theorem State.pageState_eq_iff (s : State) (p : Page) (t : PageState) (ht : t ≠ .corrupt) :
    s.pageState p = t ↔
      s.readU16 (fieldAddr s.cfg p 0) = targetField t 0 ∧ s.readU16 (fieldAddr s.cfg p 1) = targetField t 1 ∧
      s.readU16 (fieldAddr s.cfg p 2) = targetField t 2 ∧ s.readU16 (fieldAddr s.cfg p 3) = targetField t 3 :=
  decode_fields _ _ _ _ t ht

end Sys2Proof.Machine
end

