-- ==== Sys2Proof/Laws/Commands.lean ====
section
/-! SUPPORT. When a WRITE answers a next state, how a command ends, what a step can do, and how the draws of a state are
counted. -/

namespace Sys2Proof.Machine

/-! ### The end of a command -/

/-- Where no reset is raised inside the command it ends as it would (R240). -/
@[simp] theorem State.endIn_of_none (s t : State) (h : s.resetInside = false) : s.endIn t = t := by
  simp [State.endIn, h]

/-- Where reset is raised inside the command it ends in the state after reset, whatever it was about to write (R240). -/
@[simp] theorem State.endIn_of_reset (s t : State) (h : s.resetInside = true) : s.endIn t = s.takeReset := by
  simp [State.endIn, h]

theorem State.resetInside_iff (s : State) : s.resetInside = true ↔ ∃ rest, s.inputs = .resetInside :: rest := by
  unfold State.resetInside
  cases h : s.inputs with
  | nil => simp
  | cons i rest => cases i <;> simp

/-- Only the inputs say whether a reset is raised inside the command. -/
theorem State.resetInside_congr {s t : State} (h : t.inputs = s.inputs) : t.resetInside = s.resetInside := by
  rw [State.resetInside, State.resetInside, h]

/-- After a reset the registers of R40 hold their values. -/
theorem State.registersReset_takeReset (s : State) : s.takeReset.registersReset :=
  ⟨rfl, rfl, rfl, rfl, rfl, rfl, rfl⟩

theorem State.registersReset_powerCycle (s : State) : s.powerCycle.registersReset :=
  ⟨rfl, rfl, rfl, rfl, rfl, rfl, rfl⟩

@[simp] theorem Res.settle_done (s : State) : (Res.done () s).settle = s.endIn (s.complete .ok) := rfl
@[simp] theorem Res.settle_raised (k : ErrorKind) (s : State) :
    (Res.raised k s).settle = s.endIn (s.abort k) := rfl
@[simp] theorem Res.settle_hung (s : State) : (Res.hung s : Res Unit).settle = s := rfl
@[simp] theorem Res.settle_powerLost (s : State) : (Res.powerLost s : Res Unit).settle = s.powerCycle := rfl

/-- How the state a command leaves comes from the state its body ends in: completed, aborted, reset inside it, hung, or
cut at a call. -/
theorem Res.settle_cases (r : Res Unit) :
    (r.state.resetInside = true ∧ r.settle = r.state.takeReset) ∨
    (∃ s, r = .done () s ∧ r.settle = s.complete .ok) ∨ (∃ k s, r = .raised k s ∧ r.settle = s.abort k) ∨
    (∃ s, r = .hung s ∧ r.settle = s) ∨ (∃ s, r = .powerLost s ∧ r.settle = s.powerCycle) := by
  cases r with
  | done u s => cases u; cases h : s.resetInside <;> simp [h]
  | raised k s => cases h : s.resetInside <;> simp [h]
  | hung s => simp
  | powerLost s => simp

/-! ### WRITE and the step -/

/-- `WRITE` answers a next state exactly when the block is free, its configuration legal, the data are the `LEN` bytes of
the frame, and the base of no page is not needed (R14, R99, R100). -/
theorem writeCommand_eq_next (addr len : Nat) (data : List Byte) (s t : State) :
    writeCommand addr len data s = .next t ↔
      s.busy = false ∧ legalConfig s.cfg = true ∧ data.length = len ∧
      ¬ ((((s.accept 0x03).setOperands addr len).setWdata data).inRange = true ∧ s.inactive = .none) ∧
      t = (writeBody (((s.accept 0x03).setOperands addr len).setWdata data)).settle := by
  generalize hu : ((s.accept 0x03).setOperands addr len).setWdata data = u
  have hi : u.inactive = s.inactive := by rw [← hu]; rfl
  unfold writeCommand
  rw [hu]
  cases hr : s.refusal with
  | none =>
    obtain ⟨hb, hc⟩ := (State.refusal_eq_none s).mp hr
    by_cases hl : data.length = len
    · by_cases hn : u.inRange = true ∧ s.inactive = .none
      · simp only [hl, ne_eq, not_true_eq_false, if_false, hi, if_pos hn, reduceCtorEq, false_iff]
        tauto
      · simp only [hl, ne_eq, not_true_eq_false, if_false, hi, if_neg hn, Host.Outcome.next.injEq]
        exact ⟨fun h => ⟨hb, hc, trivial, hn, h.symm⟩, fun h => h.2.2.2.2.symm⟩
    · simp [hl]
  | some r =>
    have : ¬ (s.busy = false ∧ legalConfig s.cfg = true) := by
      rw [← State.refusal_eq_none, hr]; simp
    simp only [reduceCtorEq, false_iff]
    tauto

theorem whenLegal_of_legal (s : State) (r : Answer) (h : legalConfig s.cfg = true) : whenLegal s r = r := by
  simp [whenLegal, h]

theorem whenLegal_of_illegal (s : State) (r : Answer) (h : legalConfig s.cfg = false) :
    whenLegal s r = .refused .illegalConfiguration := by
  simp [whenLegal, h]

/-- Everything a step that goes on can do: wait, take a reset, run a decoded frame, or reject one that is none. -/
theorem step_eq_next (s t : State) (h : step s = .next t) :
    legalConfig s.cfg = true ∧
    ((s.inputs = [] ∧ t = s) ∨
     ((∃ rest, s.inputs = .reset :: rest ∨ s.inputs = .resetInside :: rest) ∧ t = s.takeReset) ∨
     (∃ f rest i, s.inputs = .frame f :: rest ∧ decodeFrame s.cfg.addrWidth f = .ok i ∧
        exec i ((s.setInputs rest).latchFrame f) = .next t) ∨
     (∃ f rest e, s.inputs = .frame f :: rest ∧ decodeFrame s.cfg.addrWidth f = .error e ∧
        rejectFrame e (s.setInputs rest) = .next t)) := by
  unfold step whenLegal at h
  split at h
  · refine ⟨‹_›, ?_⟩
    split at h
    · exact .inl ⟨‹_›, (Host.Outcome.next.inj h).symm⟩
    · exact .inr (.inl ⟨⟨_, .inl ‹_›⟩, (Host.Outcome.next.inj h).symm⟩)
    · exact .inr (.inl ⟨⟨_, .inr ‹_›⟩, (Host.Outcome.next.inj h).symm⟩)
    · split at h
      · exact .inr (.inr (.inl ⟨_, _, _, ‹_›, ‹_›, h⟩))
      · exact .inr (.inr (.inr ⟨_, _, _, ‹_›, ‹_›, h⟩))
  · cases h

/-! ### Draws from a state on -/

theorem State.nextDraw_eq_drawAt (s : State) : s.nextDraw = s.drawAt 0 := by
  simp [State.nextDraw_eq, State.drawAt]

theorem State.drawAt_popDraw (s : State) (k : Nat) : s.popDraw.drawAt k = s.drawAt (k + 1) := by
  unfold State.drawAt
  cases h : s.draws <;> simp [h, Nat.add_comm, Nat.add_left_comm]

/-- After one draw one call less is known to succeed. -/
theorem State.quiet_popDraw (s : State) (n : Nat) (h : s.quiet (n + 1)) : s.popDraw.quiet n := fun k hk => by
  rw [State.drawAt_popDraw]
  exact h (k + 1) (by omega)

end Sys2Proof.Machine
end

