-- ==== Sys2Proof/Laws/PerInstr.lean ====
section
/-! SUPPORT. Statements made for every instruction as syntax, one lemma per constructor. -/

namespace Sys2Proof.Laws

/-- The command code of an instruction's row in the opcode table (R101, R102, R109). -/
def tableCode : Instr → Byte
  | .init => 0x01
  | .read _ _ => 0x02
  | .write _ _ _ => 0x03
  | .massErase => 0x04
  | .decodeState _ => 0x10
  | .advanceState _ => 0x11
  | .setState _ _ => 0x12
  | .csumCompute _ => 0x20
  | .csumStored _ => 0x21
  | .csumIntact _ => 0x22
  | .read8 _ => 0x02
  | .read16 _ => 0x02
  | .read32 _ => 0x02
  | .write8 _ _ => 0x03
  | .write16 _ _ => 0x03
  | .write32 _ _ => 0x03

/-- Bits 7 to 0 of a frame: `CMD` (R99, R102). -/
def codeOf : Frame → Byte
  | .host word _ => frameCmd word
  | .ubus word => bitField word 0 8

/-- The frame of an instruction carries its row's code, whatever the operands and the configuration. -/
def FrameCode.Statement (i : Instr) : Prop := ∀ cfg : Config, codeOf (encode cfg i) = tableCode i

theorem FrameCode.host (aw cmd addr len : Nat) :
    frameCmd (hostWord aw cmd addr len) = BitVec.ofNat 8 cmd := by
  have : hostWord aw cmd addr len = cmd + 256 * (addr + len * 2 ^ aw) := by
    simp only [hostWord, Nat.pow_add]; ring
  apply BitVec.eq_of_toNat_eq
  simp only [frameCmd, BitVec.toNat_ofNat, this]
  omega

theorem FrameCode.ubus (cmd : Byte) (page : BitVec 2) (target : BitVec 3) :
    bitField (ubusWord cmd page target) 0 8 = cmd := by
  simp only [bitField, ubusWord]; bv_omega

theorem FrameCode.init : FrameCode.Statement .init := fun _ => FrameCode.host _ _ _ _
theorem FrameCode.read (addr len : Nat) : FrameCode.Statement (.read addr len) :=
  fun _ => FrameCode.host _ _ _ _
theorem FrameCode.write (addr len : Nat) (data : List Byte) : FrameCode.Statement (.write addr len data) :=
  fun _ => FrameCode.host _ _ _ _
theorem FrameCode.massErase : FrameCode.Statement .massErase := fun _ => FrameCode.host _ _ _ _
theorem FrameCode.decodeState (raw : StateWord) : FrameCode.Statement (.decodeState raw) := by
  intro cfg
  simp only [encode, codeOf, tableCode, bitField]; bv_omega
theorem FrameCode.advanceState (page : Designator) : FrameCode.Statement (.advanceState page) :=
  fun _ => FrameCode.ubus _ _ _
theorem FrameCode.setState (page : Designator) (target : PageState) :
    FrameCode.Statement (.setState page target) := fun _ => FrameCode.ubus _ _ _
theorem FrameCode.csumCompute (page : Designator) : FrameCode.Statement (.csumCompute page) :=
  fun _ => FrameCode.ubus _ _ _
theorem FrameCode.csumStored (page : Designator) : FrameCode.Statement (.csumStored page) :=
  fun _ => FrameCode.ubus _ _ _
theorem FrameCode.csumIntact (page : Designator) : FrameCode.Statement (.csumIntact page) :=
  fun _ => FrameCode.ubus _ _ _
theorem FrameCode.read8 (addr : Nat) : FrameCode.Statement (.read8 addr) := fun _ => FrameCode.host _ _ _ _
theorem FrameCode.read16 (addr : Nat) : FrameCode.Statement (.read16 addr) := fun _ => FrameCode.host _ _ _ _
theorem FrameCode.read32 (addr : Nat) : FrameCode.Statement (.read32 addr) := fun _ => FrameCode.host _ _ _ _
theorem FrameCode.write8 (addr : Nat) (v : BitVec 8) : FrameCode.Statement (.write8 addr v) :=
  fun _ => FrameCode.host _ _ _ _
theorem FrameCode.write16 (addr : Nat) (v : BitVec 16) : FrameCode.Statement (.write16 addr v) :=
  fun _ => FrameCode.host _ _ _ _
theorem FrameCode.write32 (addr : Nat) (v : BitVec 32) : FrameCode.Statement (.write32 addr v) :=
  fun _ => FrameCode.host _ _ _ _

end Sys2Proof.Laws
end

