-- ==== Sys2Proof/Tests/Slice0.lean ====
section
/-! SUPPORT. Tests of the model against what the spec writes out: ill-formed terms, frames, one step of each instruction
with the vectors of spec 95_test_vectors.md, and for each statement with premises a state and operands that meet them. -/

/- One theorem is elaborated after another: side by side their kernel evaluations take more threads than the memory
limit of a check allows. -/
set_option Elab.async false

namespace Sys2Proof.Tests

open Sys2Proof Sys2Proof.Machine

/-! ### Ill-formed terms (30_encoding.md R99, R103, R104) -/

theorem test_wf_read_addr : wellFormed 32 (.read (2 ^ 32) 0) = false := by decide +kernel
theorem test_wf_read_len : wellFormed 32 (.read 0 (2 ^ 32)) = false := by decide +kernel
theorem test_wf_write_addr : wellFormed 32 (.write (2 ^ 32) 0 []) = false := by decide +kernel
theorem test_wf_write_len : wellFormed 2 (.write 0 4 [0, 0, 0, 0]) = false := by decide +kernel
theorem test_wf_write_data : wellFormed 32 (.write 0 2 [0xAB]) = false := by decide +kernel
theorem test_wf_advance_page : wellFormed 32 (.advanceState .none) = false := by decide +kernel
theorem test_wf_set_page : wellFormed 32 (.setState .none .copy) = false := by decide +kernel
theorem test_wf_set_target : wellFormed 32 (.setState .page1 .corrupt) = false := by decide +kernel
theorem test_wf_compute_page : wellFormed 32 (.csumCompute .none) = false := by decide +kernel
theorem test_wf_stored_page : wellFormed 32 (.csumStored .none) = false := by decide +kernel
theorem test_wf_intact_page : wellFormed 32 (.csumIntact .none) = false := by decide +kernel
theorem test_wf_typed_addr :
    [Instr.read8 (2 ^ 32), .read16 (2 ^ 32), .read32 (2 ^ 32), .write8 (2 ^ 32) 0, .write16 (2 ^ 32) 0,
      .write32 (2 ^ 32) 0].map (wellFormed 32) = List.replicate 6 false := by decide +kernel
theorem test_wf_typed_len :
    [Instr.read8 0, .write8 0 0].map (wellFormed 0) ++ [Instr.read16 0, .write16 0 0].map (wellFormed 1) ++
      [Instr.read32 0, .write32 0 0].map (wellFormed 2) = List.replicate 6 false := by decide +kernel

/-! ### Frames, written out from R99, R101 and R102: `LEN | ADDR | CMD`, and `TARGET | PAGE | CMD` or `RAW | CMD` -/

/-- What a host frame decodes to with `AW` 32, if it is an instruction. -/
def hostInstr (word : Nat) (data : List Byte) : Option Instr := (decodeHost 32 word data).toOption

/-- What a ubus frame decodes to, if it is an instruction. -/
def ubusInstr (word : BitVec 72) : Option Instr := (decodeUbus word).toOption

theorem test_decode_init : hostInstr 0x00000000_00000000_01 [] = some .init := by decide +kernel
theorem test_decode_read : hostInstr 0x00000001_000003F4_02 [] = some (.read 1012 1) := by decide +kernel
theorem test_decode_write :
    hostInstr 0x00000002_00000002_03 [0xA5, 0x5A] = some (.write 2 2 [0xA5, 0x5A]) := by decide +kernel
theorem test_decode_mass_erase : hostInstr 0x00000000_00000000_04 [] = some .massErase := by decide +kernel
theorem test_decode_decode_state :
    ubusInstr 0x0000_0000_FFFF_FFFF_10 = some (.decodeState 0x0000_0000_FFFF_FFFF) := by decide +kernel
theorem test_decode_advance_state :
    ubusInstr 0b000_01_00010001 = some (.advanceState .page1) := by decide +kernel
theorem test_decode_set_state :
    ubusInstr 0b011_10_00010010 = some (.setState .page2 .copy) := by decide +kernel
theorem test_decode_csum_compute :
    ubusInstr 0b000_10_00100000 = some (.csumCompute .page2) := by decide +kernel
theorem test_decode_csum_stored :
    ubusInstr 0b000_01_00100001 = some (.csumStored .page1) := by decide +kernel
theorem test_decode_csum_intact :
    ubusInstr 0b000_10_00100010 = some (.csumIntact .page2) := by decide +kernel
/-- The typed accessors' frames are `READ` and `WRITE` with `LEN` 1, 2 and 4 (R109). -/
theorem test_decode_typed_reads :
    [hostInstr 0x00000001_00000064_02 [], hostInstr 0x00000002_00000003_02 [], hostInstr 0x00000004_00000008_02 []] =
      [some (.read 100 1), some (.read 3 2), some (.read 8 4)] := by decide +kernel
theorem test_decode_typed_writes :
    [hostInstr 0x00000001_00000064_03 [0x01], hostInstr 0x00000002_00000000_03 [0xAB, 0xCD],
      hostInstr 0x00000004_00000008_03 [0x11, 0x22, 0x33, 0x44]] =
      [some (.write 100 1 [0x01]), some (.write 0 2 [0xAB, 0xCD]), some (.write 8 4 [0x11, 0x22, 0x33, 0x44])] := by
  decide +kernel
theorem test_encode_typed :
    [encode .ref1K (.read8 100), encode .ref1K (.read16 3), encode .ref1K (.read32 8), encode .ref1K (.write8 100 0x01),
      encode .ref1K (.write16 0 0xABCD), encode .ref1K (.write32 8 0x11223344),
      encode { Config.ref1K with accOrder := .le } (.write16 0 0xABCD)] =
      [.host 0x00000001_00000064_02 [], .host 0x00000002_00000003_02 [], .host 0x00000004_00000008_02 [],
        .host 0x00000001_00000064_03 [0x01], .host 0x00000002_00000000_03 [0xAB, 0xCD],
        .host 0x00000004_00000008_03 [0x11, 0x22, 0x33, 0x44], .host 0x00000002_00000000_03 [0xCD, 0xAB]] := by
  decide +kernel
/-- Illegal on the host port (R105): `0x00` and every micro-operation code. -/
theorem test_decode_host_illegal :
    [0x00, 0x05, 0x10, 0x11, 0x12, 0x20, 0x21, 0x22, 0xFF].map (fun w => hostInstr w []) =
      List.replicate 9 none := by decide +kernel
/-- No designator 3 (R97), no state code 5 or 6 (R96), no micro-operation `0x01` or `0x13`. -/
theorem test_decode_ubus_reserved :
    [ubusInstr 0b000_11_00010001, ubusInstr 0b101_01_00010010, ubusInstr 0b110_01_00010010, ubusInstr 0x01,
      ubusInstr 0x13] = List.replicate 5 none := by decide +kernel
theorem test_table_words :
    [decodeTableWord 8 0x01, decodeTableWord 8 0x04, decodeTableWord 16 0x0121, decodeTableWord 72 0x00000001_000003F4_02] =
      [some .init, some .massErase, some (.csumStored .page1), some (.read 1012 1)] := by decide +kernel

/-! ### States of `REF-16` (00_scope.md R10) -/

/-- A state of `REF-16` with the two pages' contents, the active page and the draws. -/
def block (page1 page2 : List Byte) (active inactive : Designator) (draws : List Draw) : State :=
  { State.reset with
    cfg := Config.ref16
    active := active
    inactive := inactive
    flash := (Memory.writeBytes [] 0x00 page1).writeBytes 0x10 page2
    draws := draws }

/-- `n` calls that succeed. -/
def oks (n : Nat) : List Draw := List.replicate n ⟨.doneOk, []⟩

/-- `n` calls that succeed, then one with the given outcome and contents, then twenty more that succeed. -/
def after (n : Nat) (k : DrawKind) (junk : List Byte) : List Draw := oks n ++ ⟨k, junk⟩ :: oks 20

def erasedPage : List Byte := List.replicate 16 0xFF
/-- Page 1 after command 3 of program P2. -/
def retired : List Byte := [0xFF, 0xFF, 0xFF, 0xFF, 0xFF, 0xFF, 0xFF, 0xFF, 0, 0, 0, 0, 0, 0, 0, 0]
/-- Page 2 after command 3 of program P2. -/
def current : List Byte := [0x11, 0x22, 0x33, 0xFF, 0xFF, 0xFF, 0x03, 0x63, 0, 0, 0, 0, 0xFF, 0xFF, 0xFF, 0xFF]
/-- The same page marked COPY. -/
def copied : List Byte := [0x11, 0x22, 0x33, 0xFF, 0xFF, 0xFF, 0x03, 0x63, 0, 0, 0, 0, 0, 0, 0xFF, 0xFF]

/-- After command 3 of program P2: page 2 active and VALID, page 1 INVALID. -/
def store (draws : List Draw) : State := block retired current .page2 .page1 draws
/-- After `MASS_ERASE` and `INIT`. -/
def fresh (draws : List Draw) : State := block erasedPage erasedPage .page1 .page2 draws
/-- The same contents as `store` before `INIT`. -/
def unset (draws : List Draw) : State := block retired current .none .none draws

/-- The answer is a next state of which `p` holds. -/
def goes (a : Answer) (p : State → Bool) : Bool :=
  match a with
  | .next t => p t
  | .fault _ => false
  | .refused _ => false

/-- The bytes of a page. -/
def dump (s : State) (p : Page) : List Byte := (List.range s.cfg.pageSize).map (s.pageByte p)

/-- An answer's state, where it has one. -/
def nextOf (a : Answer) : Option State :=
  match a with
  | .next t => some t
  | .fault _ => none
  | .refused _ => none

/-! ### One step of each instruction (95_test_vectors.md) -/

/-- 2.4: (INVALID, VALID) makes page 2 active. -/
theorem test_init_valid :
    goes (exec .init (unset [])) (fun t => t.active = .page2 ∧ t.inactive = .page1 ∧ t.status = .ok) := by
  decide +kernel
/-- 2.4: payload `11 22 33 FF FF FF` with checksum `03 64`: `ChecksumMismatch`, the designation kept. -/
theorem test_init_mismatch :
    goes (exec .init (block ([0x11, 0x22, 0x33, 0xFF, 0xFF, 0xFF, 0x03, 0x64, 0, 0, 0, 0, 0xFF, 0xFF, 0xFF, 0xFF])
      erasedPage .none .none [])) (fun t => t.active = .page1 ∧ t.status = .error .checksumMismatch) := by
  decide +kernel
/-- P3, command 5. -/
theorem test_read_payload :
    goes (exec (.read 0 5) (store [])) (fun t => t.rdata = [0x11, 0x22, 0x33, 0xFF, 0xFF] ∧ t.status = .ok) := by
  decide +kernel
/-- 2.5: `READ 5, 1` ends at `P`. -/
theorem test_read_bound :
    goes (exec (.read 5 1) (store [])) (fun t => t.rdata = [] ∧ t.status = .error .outOfRange) := by decide +kernel
/-- P2, command 4. -/
theorem test_write_swaps :
    goes (exec (.write 2 2 [0xA5, 0x5A]) (store (oks 20))) (fun t =>
      dump t .p1 = [0x11, 0x22, 0xA5, 0x5A, 0xFF, 0xFF, 0x03, 0x30, 0, 0, 0, 0, 0xFF, 0xFF, 0xFF, 0xFF] ∧
      dump t .p2 = [0x11, 0x22, 0x33, 0xFF, 0xFF, 0xFF, 0x03, 0x63, 0, 0, 0, 0, 0, 0, 0, 0] ∧
      t.active = .page1 ∧ t.lock = .locked ∧ t.drawn = 9) := by decide +kernel
/-- P5, command 1: the last program fails and leaves `0xFFFF`. -/
theorem test_write_fails_at_step_8 :
    goes (exec (.write 2 2 [0xA5, 0x5A]) (store (after 8 .doneErr [0xFF, 0xFF]))) (fun t =>
      dump t .p1 = [0x11, 0x22, 0xA5, 0x5A, 0xFF, 0xFF, 0x03, 0x30, 0, 0, 0, 0, 0xFF, 0xFF, 0xFF, 0xFF] ∧
      dump t .p2 = copied ∧ t.active = .page2 ∧ t.lock = .locked ∧
      t.status = .error .hardwareProgramError) := by decide +kernel
/-- 2.6: no faults. -/
theorem test_mass_erase :
    goes (exec .massErase (store (oks 2))) (fun t =>
      dump t .p1 = erasedPage ∧ dump t .p2 = erasedPage ∧ t.active = .page2 ∧ t.status = .ok) := by decide +kernel
/-- 2.6: page 1 `no_completion`, page 2 `done_err`: `Timeout`. -/
theorem test_mass_erase_timeout :
    goes (exec .massErase (store [⟨.noCompletion, []⟩, ⟨.doneErr, []⟩])) (fun t =>
      t.active = .page2 ∧ t.status = .error .timeout) := by decide +kernel
/-- 2.1. -/
theorem test_decode_state_vectors :
    [0xFFFF_FFFF_FFFF_FFFF, 0x0000_FFFF_FFFF_FFFF, 0x0000_0000_FFFF_FFFF, 0x0000_0000_0000_FFFF, 0x0,
      0xFFFF_0000_FFFF_FFFF, 0x0000_FFFF_0000_FFFF, 0x0000_00FF_FFFF_FFFF, 0x0000_0000_FFFF_FFFE,
      0x7FFF_FFFF_FFFF_FFFF, 0xFFFF_FFFF_FFFF_0000, 0x1].map decodeStateWord =
      [.erased, .write, .valid, .copy, .invalid] ++ List.replicate 7 .corrupt := by decide +kernel
theorem test_decode_state :
    goes (exec (.decodeState 0x0000_0000_FFFF_FFFF) (fresh [])) (fun t => t.ures = .state .valid) := by decide +kernel
/-- R124: bytes `00 00 00 00 FF FF FF FF`. -/
theorem test_advance_state :
    goes (exec (.advanceState .page2) (store [])) (fun t =>
      t.ures = .state .valid ∧ t.sreg = 0x0000_0000_FFFF_FFFF) := by decide +kernel
/-- 2.1: bytes `00 00 00 FF FF FF FF FF`. -/
theorem test_advance_state_torn :
    goes (exec (.advanceState .page1) (block ([0, 0, 0, 0, 0, 0, 0, 0, 0, 0, 0, 0xFF, 0xFF, 0xFF, 0xFF, 0xFF]) erasedPage
      .none .none [])) (fun t => t.ures = .state .corrupt) := by decide +kernel
/-- 2.2: ERASED to COPY programs fields 0, 1 and 2. -/
theorem test_set_state :
    goes (exec (.setState .page1 .copy) ((fresh (oks 3)).setLock .unlocked)) (fun t =>
      t.ures = .ok ∧ t.drawn = 3 ∧ t.stateWord .p1 = 0x0000_0000_0000_FFFF) := by decide +kernel
/-- 2.2, corrupt input: `0xFFFF_0000_FFFF_FFFF` to WRITE is a violation that has mutated the page. -/
theorem test_set_state_mutates_then_fails :
    goes (exec (.setState .page1 .write) ((block
      ([0, 0, 0, 0, 0, 0, 0, 0, 0xFF, 0xFF, 0, 0, 0xFF, 0xFF, 0xFF, 0xFF]) erasedPage .none .none (oks 3)).setLock
        .unlocked)) (fun t =>
      t.ures = .raised .stateTransitionViolation ∧ t.stateWord .p1 = 0x0000_0000_FFFF_FFFF) := by decide +kernel
/-- 2.3: erased payload `0x05FA`, `11 22 33 FF FF FF` gives `0x0363`. -/
theorem test_csum_compute :
    goes (exec (.csumCompute .page2) (store [])) (fun t => t.ures = .half 0x0363 ∧ t.acc = 0x0363) ∧
    goes (exec (.csumCompute .page1) (store [])) (fun t => t.ures = .half 0x05FA) := by decide +kernel
/-- 2.3: bytes `03 63` give `0x0363` under `BE` and `0x6303` under `LE`. -/
theorem test_csum_stored :
    goes (exec (.csumStored .page2) (store [])) (fun t => t.ures = .half 0x0363) ∧
    goes (exec (.csumStored .page2) { store [] with cfg := { Config.ref16 with hwOrder := .le } })
      (fun t => t.ures = .half 0x6303) := by decide +kernel
/-- 2.3. -/
theorem test_csum_intact :
    goes (exec (.csumIntact .page2) (store [])) (fun t => t.ures = .bit true) ∧
    goes (exec (.csumIntact .page1) (fresh [])) (fun t => t.ures = .bit false) := by decide +kernel
/-- R201: the highest legal `ADDR` is `P - 2`. -/
theorem test_read8 :
    goes (exec (.read8 2) (store [])) (fun t => t.value8 = 0x33) ∧
    goes (exec (.read8 5) (store [])) (fun t => t.status = .error .outOfRange) := by decide +kernel
/-- R202, both orders, an odd offset. -/
theorem test_read16 :
    goes (exec (.read16 1) (store [])) (fun t => t.value16 = 0x2233) ∧
    goes (exec (.read16 1) { store [] with cfg := { Config.ref16 with accOrder := .le } })
      (fun t => t.value16 = 0x3322) := by decide +kernel
/-- R203, both orders. -/
theorem test_read32 :
    goes (exec (.read32 0) (store [])) (fun t => t.value32 = 0x112233FF) ∧
    goes (exec (.read32 0) { store [] with cfg := { Config.ref16 with accOrder := .le } })
      (fun t => t.value32 = 0xFF332211) := by decide +kernel
/-- R204. -/
theorem test_write8 :
    goes (exec (.write8 4 0x01) (store (oks 20))) (fun t =>
      (dump t .p1).take 6 = [0x11, 0x22, 0x33, 0xFF, 0x01, 0xFF]) := by decide +kernel
/-- R205, an odd offset, `ACC_ORDER` `LE`. -/
theorem test_write16 :
    goes (exec (.write16 1 0xABCD) { store (oks 20) with cfg := { Config.ref16 with accOrder := .le } })
      (fun t => (dump t .p1).take 6 = [0x11, 0xCD, 0xAB, 0xFF, 0xFF, 0xFF]) := by decide +kernel
/-- R206. -/
theorem test_write32 :
    goes (exec (.write32 1 0x11223344) (store (oks 20))) (fun t =>
      (dump t .p1).take 6 = [0x11, 0x11, 0x22, 0x33, 0x44, 0xFF]) := by decide +kernel

/-! ### Codes (30_encoding.md R96 to R98) and the unused call `read_u32` (20_memory.md R60) -/

theorem test_status_codes :
    [Status.ok, .error .outOfRange, .error .hardwareProgramError, .error .stateTransitionViolation,
      .error .checksumMismatch, .error .corrupt, .error .timeout, .error .illegalCommand].map statusCode =
      [0, 1, 2, 3, 4, 5, 6, 7] := by decide +kernel
theorem test_operand_codes :
    [PageState.erased, .write, .valid, .copy, .invalid, .corrupt].map PageState.code = [0, 1, 2, 3, 4, 7] ∧
    [Designator.none, .page1, .page2].map Designator.code = [0, 1, 2] := by decide +kernel
theorem test_read_u32 :
    (store []).readU32 0x10 = 0x112233FF ∧
    ({ store [] with cfg := { Config.ref16 with hwOrder := .le } } : State).readU32 0x10 = 0xFF332211 := by
  decide +kernel

/-! ### The step -/

/-- P4, commands 2 and 3: an illegal command leaves nothing but its status. -/
theorem test_step_illegal :
    (nextOf (step ((unset []).present (.host 0x12 []))) =
      some { unset [] with status := .error .illegalCommand }) ∧
    (nextOf (step ((unset []).present (.host 0x00 []))) =
      some { unset [] with status := .error .illegalCommand }) := by decide +kernel
/-- Frame of `READ 4, 1` (2.5), taken from the inputs. -/
theorem test_step_read :
    goes (step ((store []).present (.host 0x00000001_00000004_02 []))) (fun t =>
      t.rdata = [0xFF] ∧ t.addr = 4 ∧ t.len = 1 ∧ t.cmd = 0x02 ∧ t.inputs = []) := by decide +kernel
/-- The first instruction after reset, from an opcode-table word: `READ` before `INIT` (P4, command 1). -/
theorem test_step_first_instruction :
    goes (step (State.reset.withFetchWord 8 0x02)) (fun t => t.status = .error .outOfRange ∧ t.cmd = 0x02) := by
  decide +kernel
/-- A `WRITE` that hangs under an infinite wait budget (R229), at the program of step 3. -/
theorem test_step_hang :
    goes (exec (.write 0 1 [0]) { store (after 2 .noCompletion []) with
      cfg := { Config.ref16 with waitBudget := .infinite } }) (fun t =>
      t.busy = true ∧ t.fbusy = true ∧ t.lock = .unlocked ∧ t.step = .s3) := by decide +kernel
/-- An illegal configuration gives no step a meaning (R8): waiting, reset and a frame. -/
theorem test_step_illegal_config :
    [[], [Input.reset], [.frame (.host 0x01 [])]].map (fun l =>
      nextOf (step { store [] with inputs := l, cfg := { Config.ref16 with pageSize := 11 } })) =
      [none, none, none] := by decide +kernel
/-- Reset (R240, R244). -/
theorem test_step_reset :
    goes (step { store [] with inputs := [.reset], status := .error .timeout, busy := true, lock := .unlocked,
                               step := .s5 }) (fun t =>
      t.active = .none ∧ t.status = .ok ∧ t.busy = false ∧ t.lock = .locked ∧ t.step = .idle ∧
      dump t .p2 = current) := by decide +kernel

/-- Reset inside a `READ` and inside an `INIT` that makes no mutating call (R240): neither status, value nor designation
is written, and the reset is taken. -/
theorem test_step_reset_inside_no_call :
    goes (step { store [] with inputs := [.frame (.host 0x00000001_00000004_02 []), .resetInside],
                               status := .error .timeout }) (fun t =>
      t.status = .ok ∧ t.active = .none ∧ t.rdata = [] ∧ t.busy = false ∧ t.inputs = []) ∧
    goes (step { unset [] with inputs := [.frame (.host 0x01 []), .resetInside] }) (fun t =>
      t.status = .ok ∧ t.active = .none ∧ t.inactive = .none ∧ t.inputs = [] ∧ dump t .p2 = current) := by
  decide +kernel
/-- Reset inside a `WRITE` past its last mutating call: the swap is durable, and no page is designated (R240, R242). -/
theorem test_step_reset_inside_write :
    goes (exec (.write 2 2 [0xA5, 0x5A]) { store (oks 12) with inputs := [.resetInside] }) (fun t =>
      t.active = .none ∧ t.lock = .locked ∧ t.drawn = 9 ∧ t.pageState .p1 = .valid ∧ t.pageState .p2 = .invalid ∧
      t.inputs = []) := by decide +kernel

/-! ### States and operands that meet the premises of the statements -/

theorem witness_EncodedInstructionsDecodeBack :
    [Instr.init, .read 0xFFFFFFFF 0xFFFFFFFF, .write 0xFFFFFFFF 1 [0xAB], .massErase, .decodeState 0xFFFF_FFFF_FFFF_FFFF,
      .advanceState .page1, .setState .page2 .invalid, .csumCompute .page2, .csumStored .page1, .csumIntact .page2,
      .read8 0xFFFFFFFF, .read16 0, .read32 1, .write8 0 0xFF, .write16 0xFFFFFFFF 0xFFFF,
      .write32 0 0xFFFFFFFF].all (wellFormed 32) = true := by decide +kernel

theorem witness_StepRunsTheDecodedFrame :
    ((store []).present (.host 0x00000001_00000004_02 [])).inputs = [.frame (.host 0x00000001_00000004_02 [])] ∧
    (decodeFrame 32 (.host 0x00000001_00000004_02 [])).toOption = some (.read 4 1) ∧
    ((store []).present (.ubus 0x0121)).inputs = [.frame (.ubus 0x0121)] ∧
    (decodeFrame 32 (.ubus 0x0121)).toOption = some (.csumStored .page1) := by decide +kernel

theorem witness_ready : (store []).ready ∧ (unset []).ready ∧ (fresh []).ready := by
  simp only [State.ready]; decide +kernel

theorem witness_DecodeStateMatchesFivePatterns : (store []).ready := witness_ready.1
theorem witness_AdvanceStateReadsFourFields : (store []).ready := witness_ready.1
theorem witness_ChecksumIsSumModulo65536 : (store []).ready := witness_ready.1
theorem witness_IntactMeansStoredEqualsComputed : (store []).ready := witness_ready.1
/-- An erased page, for the last clause. -/
theorem witness_StoredChecksumIsHalfwordAtP :
    (fresh []).ready ∧ (∀ o < (fresh []).cfg.pageSize, (fresh []).pageByte .p1 o = 0xFF) := by
  simp only [State.ready]; decide +kernel

theorem witness_IllegalHostCommandSetsStatusOnly :
    ((unset []).present (.host 0x12 [])).ready ∧
    ((unset []).present (.host 0x12 [])).inputs = [.frame (.host 0x12 [])] ∧
    (([] : List Input).head? ≠ some .resetInside) ∧
    frameCmd 0x12 ≠ 0x01 ∧ frameCmd 0x12 ≠ 0x02 ∧ frameCmd 0x12 ≠ 0x03 ∧ frameCmd 0x12 ≠ 0x04 := by
  simp only [State.ready]; decide +kernel

theorem witness_NothingRunsWhileBusy :
    legalConfig (((store []).setBusy true).present (.host 0x01 [])).cfg = true ∧
    (((store []).setBusy true).present (.host 0x01 [])).busy = true ∧
    (((store []).setBusy true).present (.host 0x01 [])).inputs = [.frame (.host 0x01 [])] := by decide +kernel

theorem witness_IllegalConfigurationIsRefused :
    legalConfig ({ store [] with cfg := { Config.ref16 with pageSize := 11 } } : State).cfg = false ∧
    legalConfig { Config.ref16 with page2Addr := 0x0E } = false := by decide +kernel

theorem witness_WaitsWhenNothingIsDelivered : legalConfig (store []).cfg = true ∧ (store []).inputs = [] := by
  decide +kernel

/-- Refused when locked; refused at a halfword that is not erased; the three outcomes at an erased one; an element of
`torn` (P6). -/
theorem witness_ProgramHalfwordContract :
    (store []).lock = .locked ∧ ((store []).setLock .unlocked).readU16 0x10 ≠ 0xFFFF ∧
    ((store []).setLock .unlocked).lock = .unlocked ∧ ((store []).setLock .unlocked).readU16 0x00 = 0xFFFF ∧
    ([DrawKind.doneOk, .doneErr, .noCompletion].all fun k => ((store (after 0 k [])).drawAt 0).kind = k) = true ∧
    (0xE55A : Half) &&& 0xA55A = 0xA55A := by decide +kernel

theorem witness_ErasePageContract :
    legalConfig (store []).cfg = true ∧
    ([DrawKind.doneOk, .doneErr, .noCompletion].all fun k => ((store (after 0 k [])).drawAt 0).kind = k) = true ∧
    legalConfig { Config.ref16 with waitBudget := .infinite } = true := by decide +kernel

theorem witness_UnlockContract :
    ([DrawKind.doneOk, .doneErr, .noCompletion].all fun k =>
      ((store (after 0 k [])).drawAt 0).kind = k) = true := by decide +kernel

/-- Both draws, for an unlocked program and for an erase and unlock of locked flash. -/
theorem witness_PowerLossInsideACallTearsItsTarget :
    ([DrawKind.cutBefore, .cutDuring].all fun k =>
      ((store (after 0 k [])).setLock .unlocked).lock = .unlocked ∧
      ((store (after 0 k [])).setLock .unlocked).readU16 0x00 = 0xFFFF ∧
      (((store (after 0 k [])).setLock .unlocked).drawAt 0).kind = k ∧
      (store (after 0 k [])).lock = .locked ∧ ((store (after 0 k [])).drawAt 0).kind = k) = true := by decide +kernel

theorem witness_PageStateIgnoresHalfwordOrder :
    legalConfig (store []).cfg = true ∧ (store []).pageState .p2 = .valid := by decide +kernel

/-- Target equal, one ahead, and one behind. -/
theorem witness_SetStateBetweenCanonicalStates :
    ((store (oks 4)).setLock .unlocked).ready ∧ ((store (oks 4)).setLock .unlocked).lock = .unlocked ∧
    ((store (oks 4)).setLock .unlocked).pageState .p2 = .valid ∧ ((store (oks 4)).setLock .unlocked).quiet 4 ∧
    stateNumber .valid ≤ stateNumber .valid ∧ stateNumber .valid ≤ stateNumber .copy ∧
    stateNumber .write < stateNumber .valid := by
  simp only [State.ready, State.quiet]; decide +kernel

theorem witness_SetStateOnlyClearsItsOwnFields :
    (store []).ready ∧ PageState.invalid ≠ .corrupt := by
  simp only [State.ready]; decide +kernel

/-- Field 1 torn, target VALID. -/
def tornField : State :=
  block ([0, 0, 0, 0, 0, 0, 0, 0, 0, 0, 0x00, 0xFF, 0xFF, 0xFF, 0xFF, 0xFF]) erasedPage .none .none []

theorem witness_SetStateTornFieldIsProgramError :
    tornField.ready ∧ 1 < stateNumber .valid ∧ (∀ j < 1, tornField.readU16 (fieldAddr tornField.cfg .p1 j) = 0x0000) ∧
    tornField.readU16 (fieldAddr tornField.cfg .p1 1) ≠ 0x0000 ∧
    tornField.readU16 (fieldAddr tornField.cfg .p1 1) ≠ 0xFFFF := by
  simp only [State.ready]; decide +kernel

/-- Targets one ahead, equal and one behind. -/
theorem witness_SetStateUnderLock :
    (store []).ready ∧ (store []).lock = .locked ∧ (store []).pageState .p2 = .valid ∧
    stateNumber .valid < stateNumber .copy ∧ stateNumber .write < stateNumber .valid := by
  simp only [State.ready]; decide +kernel

theorem witness_PayloadBitFlipBreaksIntact :
    legalConfig (store []).cfg = true ∧ 5 < payloadSize (store []).cfg ∧ (store []).csumIntact .p2 = true := by
  decide +kernel

theorem witness_ErasedPageIsNeverIntact :
    legalConfig (fresh []).cfg = true ∧ (∀ o < (fresh []).cfg.pageSize, (fresh []).pageByte .p1 o = 0xFF) := by
  decide +kernel

/-- The four ways to be chosen: VALID page 1, VALID page 2, COPY page 1, COPY page 2. -/
theorem witness_InitDesignatesChosenPage :
    (block current current .none .none []).pageState .p1 = .valid ∧
    (unset []).pageState .p1 ≠ .valid ∧ (unset []).pageState .p2 = .valid ∧
    (block copied copied .none .none []).pageState .p1 = .copy ∧
    (block copied copied .none .none []).pageState .p2 ≠ .valid ∧
    (block erasedPage copied .none .none []).pageState .p1 = .erased ∧
    (block erasedPage copied .none .none []).pageState .p2 = .copy := by decide +kernel

theorem witness_InitFreshStoreErasesPageOne :
    (fresh (oks 1)).ready ∧ (fresh (oks 1)).pageState .p1 = .erased ∧ (fresh (oks 1)).pageState .p2 = .erased ∧
    (fresh (oks 1)).quiet 1 := by
  simp only [State.ready, State.quiet]; decide +kernel

theorem witness_InitFreshEraseFailureKeepsDesignation :
    ([DrawKind.doneErr, .noCompletion].all fun k =>
      ((fresh (after 0 k [])).drawAt 0).kind = k ∧ (fresh (after 0 k [])).pageState .p1 = .erased ∧
      (fresh (after 0 k [])).pageState .p2 = .erased ∧ (fresh (after 0 k [])).cfg.waitBudget = .finite) = true := by
  decide +kernel

/-- The hang, and power loss before and during the erase. -/
theorem witness_InitFreshEraseHangsOrIsCut :
    (fresh []).ready ∧ (fresh []).pageState .p1 = .erased ∧ (fresh []).pageState .p2 = .erased ∧
    ((fresh (after 0 .noCompletion [])).drawAt 0).kind = .noCompletion ∧
    legalConfig { Config.ref16 with waitBudget := .infinite } = true ∧
    (fresh (after 0 .cutBefore [])).cutAt 0 ∧ (fresh (after 0 .cutDuring [])).cutAt 0 := by
  simp only [State.ready, State.cutAt]; decide +kernel

theorem witness_InitTwiceAgrees : (fresh (oks 2)).ready ∧ (fresh (oks 2)).quiet 2 := by
  simp only [State.ready, State.quiet]; decide +kernel

/-- The sum at `P - 1` and at `P`; no active page. -/
theorem witness_ReadCopiesPayloadOrFails :
    (store []).ready ∧ (store []).active = designatorOf .p2 ∧ 0 + 5 < payloadSize (store []).cfg ∧
    payloadSize (store []).cfg ≤ 5 + 1 ∧ (unset []).ready ∧ (unset []).active = .none := by
  simp only [State.ready]; decide +kernel

/-- Each width at its highest legal offset and one above. -/
theorem witness_TypedReadsPackBytes :
    (store []).ready ∧ (store []).active = designatorOf .p2 ∧
    4 + 1 < payloadSize (store []).cfg ∧ payloadSize (store []).cfg ≤ 5 + 1 ∧
    3 + 2 < payloadSize (store []).cfg ∧ payloadSize (store []).cfg ≤ 4 + 2 ∧
    1 + 4 < payloadSize (store []).cfg ∧ payloadSize (store []).cfg ≤ 2 + 4 := by
  simp only [State.ready]; decide +kernel

theorem witness_AccessBeforeInitIsOutOfRange :
    (unset []).ready ∧ (unset []).active = .none ∧ wellFormed 32 (.read 0 1) = true ∧ readForm (.read 0 1) = true ∧
    wellFormed 32 (.write 0 1 [0]) = true ∧ writeForm (.write 0 1 [0]) = true := by
  simp only [State.ready]; decide +kernel

theorem witness_MassEraseErasesBothPages : (store (oks 2)).ready ∧ (store (oks 2)).quiet 2 := by
  simp only [State.ready, State.quiet]; decide +kernel

/-- Under a finite budget with both failures, and under an infinite one without a hang. -/
theorem witness_MassEraseAttemptsBothReportsFirst :
    (store [⟨.doneErr, []⟩, ⟨.noCompletion, []⟩]).ready ∧
    (∀ k < 2, ¬ (store [⟨.doneErr, []⟩, ⟨.noCompletion, []⟩]).cutAt k ∧
      (((store [⟨.doneErr, []⟩, ⟨.noCompletion, []⟩]).drawAt k).kind = .noCompletion →
        (store [⟨.doneErr, []⟩, ⟨.noCompletion, []⟩]).cfg.waitBudget = .finite)) ∧
    (∀ k < 2, ((fresh (oks 2)).drawAt k).kind = .doneOk) := by
  simp only [State.ready, State.cutAt]; decide +kernel

/-- A hang at the first erase and at the second, power loss at the first and at the second. -/
theorem witness_MassEraseHangsOrIsCut :
    (store []).ready ∧ legalConfig { Config.ref16 with waitBudget := .infinite } = true ∧
    ((store (after 0 .noCompletion [])).drawAt 0).kind = .noCompletion ∧
    ((store (after 1 .noCompletion [])).drawAt 0).kind = .doneOk ∧
    ((store (after 1 .noCompletion [])).drawAt 1).kind = .noCompletion ∧
    (store (after 0 .cutDuring [])).cutAt 0 ∧
    ¬ (store (after 1 .cutBefore [])).cutAt 0 ∧ (store (after 1 .cutBefore [])).cutAt 1 := by
  simp only [State.ready, State.cutAt]; decide +kernel

theorem witness_MassEraseThenInitIsFresh : (store (oks 3)).ready ∧ (store (oks 3)).quiet 3 := by
  simp only [State.ready, State.quiet]; decide +kernel

theorem witness_WriteOutOfRangeTouchesNothing :
    (store []).ready ∧ payloadSize (store []).cfg ≤ 5 + 1 ∧ [(0 : Byte)].length = 1 ∧
    (unset []).ready ∧ (unset []).active = .none := by
  simp only [State.ready]; decide +kernel

theorem ref16_legal : legalConfig Config.ref16 = true := by decide +kernel

/-- The longest access in range, `ADDR + LEN = P - 1`, and an access in the middle. -/
theorem witness_WriteAllowed (draws : List Draw) :
    WriteAllowed (store draws) .p2 2 2 [0xA5, 0x5A] ∧
    WriteAllowed (store draws) .p2 0 5 [1, 2, 3, 4, 5] ∧ WriteAllowed (store draws) .p2 5 0 [] :=
  ⟨⟨⟨ref16_legal, rfl, rfl⟩, ⟨rfl, rfl⟩, rfl, (by decide : 4 < 6)⟩,
    ⟨⟨ref16_legal, rfl, rfl⟩, ⟨rfl, rfl⟩, rfl, (by decide : 5 < 6)⟩,
    ⟨⟨ref16_legal, rfl, rfl⟩, ⟨rfl, rfl⟩, rfl, (by decide : 5 < 6)⟩⟩

/-- From a VALID page, and from a Corrupt one that step 3 can mark. -/
theorem witness_WriteMergesIntoOtherPage :
    (WriteAllowed (store (oks 12)) .p2 2 2 [0xA5, 0x5A] ∧ (store (oks 12)).markable .p2 ∧
      (store (oks 12)).quiet (payloadSize (store (oks 12)).cfg / 2 + 9)) ∧
    WriteAllowed { store (oks 12) with flash := Memory.writeBytes [] 0x1A [0, 0] } .p2 0 1 [0] ∧
    ({ store (oks 12) with flash := Memory.writeBytes [] 0x1A [0, 0] } : State).markable .p2 ∧
    ({ store (oks 12) with flash := Memory.writeBytes [] 0x1A [0, 0] } : State).pageState .p2 = .corrupt := by
  refine ⟨⟨(witness_WriteAllowed _).1, ?_⟩, ⟨⟨by decide +kernel, rfl, rfl⟩, ⟨rfl, rfl⟩, rfl, (by decide : 1 < 6)⟩, ?_⟩
  · simp only [State.quiet, State.markable]; decide +kernel
  · simp only [State.markable]; decide +kernel

/-- The same premises, with a range below and a range above that do not meet the written one. -/
theorem witness_WriteThenReadReturnsData :
    WriteAllowed (store (oks 12)) .p2 2 2 [0xA5, 0x5A] ∧ (store (oks 12)).pageState .p2 ≠ .invalid ∧
    (store (oks 12)).pageState .p2 ≠ .corrupt ∧ (store (oks 12)).quiet (payloadSize (store (oks 12)).cfg / 2 + 9) ∧
    (0 + 2 < payloadSize (store []).cfg ∧ 0 + 2 ≤ 2) ∧ (4 + 1 < payloadSize (store []).cfg ∧ 2 + 2 ≤ 4) := by
  refine ⟨(witness_WriteAllowed _).1, ?_⟩
  simp only [State.quiet]; decide +kernel

theorem witness_TypedWriteThenReadRoundTrip :
    (store (oks 12)).ready ∧ (store (oks 12)).activeIs .p2 ∧ (store (oks 12)).pageState .p2 ≠ .invalid ∧
    (store (oks 12)).pageState .p2 ≠ .corrupt ∧ (store (oks 12)).quiet (payloadSize (store (oks 12)).cfg / 2 + 9) ∧
    4 + 1 < payloadSize (store []).cfg ∧ 3 + 2 < payloadSize (store []).cfg ∧ 1 + 4 < payloadSize (store []).cfg := by
  simp only [State.ready, State.activeIs, State.quiet]; decide +kernel

theorem witness_WriteCountsFlashOperations :
    WriteAllowed (store (oks 12)) .p2 2 2 [0xA5, 0x5A] ∧ (store (oks 12)).pageState .p2 = .valid ∧
    (store (oks 12)).quiet (payloadSize (store (oks 12)).cfg / 2 + 9) ∧
    goes (exec (.write 2 2 [0xA5, 0x5A]) (store (oks 12))) (fun _ => true) := by
  refine ⟨(witness_WriteAllowed _).1, ?_⟩
  simp only [State.quiet]; decide +kernel

/-- Before the first call, before the checksum, and before the last call: two halfwords are programmed. -/
theorem witness_WriteCallsReachFlashInOrder :
    WriteAllowed (store (after 8 .cutBefore [])) .p2 2 2 [0xA5, 0x5A] ∧
    (store (after 8 .cutBefore [])).pageState .p2 = .valid ∧
    (store []).halvesToProgram .p2 2 [0xA5, 0x5A] (payloadSize (store []).cfg / 2) = 2 ∧
    ([0, 6, 8].all fun n => ((store (after n .cutBefore [])).drawAt n).kind = .cutBefore ∧ n < 7 + 2 ∧
      (List.range n).all fun k => ((store (after n .cutBefore [])).drawAt k).kind = .doneOk) = true := by
  refine ⟨(witness_WriteAllowed _).1, ?_⟩
  decide +kernel

theorem witness_WriteNeverTouchesActivePayload :
    writeForm (.write16 0 0xABCD) = true ∧ (store (after 5 .doneErr [])).activeIs .p2 ∧
    goes (exec (.write16 0 0xABCD) (store (after 5 .doneErr []))) (fun _ => true) := by
  simp only [State.activeIs]; decide +kernel

theorem witness_WriteExitsLocked :
    writeForm (.write8 0 1) = true ∧ (store (after 5 .doneErr [])).lock = .locked ∧
    goes (exec (.write8 0 1) (store (after 5 .doneErr []))) (fun t => t.busy = false) := by decide +kernel

theorem witness_FailedWriteKeepsDesignation :
    writeForm (.write8 0 1) = true ∧
    goes (exec (.write8 0 1) (store (after 5 .doneErr []))) (fun t => decide (t.status ≠ .ok)) := by decide +kernel

theorem witness_WriteFailuresBeforeMarking :
    WriteAllowed (store (after 0 .doneErr [])) .p2 2 2 [0xA5, 0x5A] ∧
    ((store (after 0 .doneErr [])).drawAt 0).kind = .doneErr ∧
    ((store (after 0 .noCompletion [])).drawAt 0).kind = .noCompletion ∧
    (store (after 0 .noCompletion [])).cfg.waitBudget = .finite ∧
    ((store (after 1 .doneErr [])).drawAt 0).kind = .doneOk ∧
    ((store (after 1 .doneErr [])).drawAt 1).kind = .doneErr := by
  refine ⟨(witness_WriteAllowed _).1, ?_⟩
  decide +kernel

theorem witness_WriteFromRetiredPageIsViolation :
    WriteAllowed { store (oks 2) with flash := Memory.writeBytes [] 0x10 retired } .p2 0 1 [0] ∧
    ({ store (oks 2) with flash := Memory.writeBytes [] 0x10 retired } : State).pageState .p2 = .invalid ∧
    ({ store (oks 2) with flash := Memory.writeBytes [] 0x10 retired } : State).quiet 2 := by
  refine ⟨⟨⟨by decide +kernel, rfl, rfl⟩, ⟨rfl, rfl⟩, rfl, (by decide : 1 < 6)⟩, ?_⟩
  simp only [State.quiet]; decide +kernel

/-- The unlock fails, and the last program fails. -/
theorem witness_FailedWriteThenInitShowsOldOrNew :
    WriteAllowed (store (after 8 .doneErr [])) .p2 2 2 [0xA5, 0x5A] ∧
    (store (after 8 .doneErr [])).pageState .p2 = .valid ∧ (store (after 8 .doneErr [])).csumIntact .p2 = true ∧
    (store (after 8 .doneErr [])).pageState .p1 ≠ .valid ∧ (store (after 8 .doneErr [])).cfg.waitBudget = .finite ∧
    (store (after 8 .doneErr [])).quiet 8 ∧ ((store (after 8 .doneErr [])).drawAt 8).kind = .doneErr ∧
    goes (exec (.write 2 2 [0xA5, 0x5A]) (store (after 8 .doneErr []))) (fun t => decide (t.status ≠ .ok)) ∧
    (store (after 1 .noCompletion [])).quiet 1 ∧ ((store (after 1 .noCompletion [])).drawAt 1).kind = .noCompletion ∧
    goes (exec (.write 2 2 [0xA5, 0x5A]) (store (after 1 .noCompletion []))) (fun t => decide (t.status ≠ .ok)) := by
  refine ⟨(witness_WriteAllowed _).1, ?_⟩
  simp only [State.quiet]; decide +kernel

/-- Power lost before the first call and before the last. -/
theorem witness_CrashBetweenCallsShowsOldOrNew :
    WriteAllowed (store (after 8 .cutBefore [])) .p2 2 2 [0xA5, 0x5A] ∧
    (store (after 8 .cutBefore [])).pageState .p2 = .valid ∧ (store (after 8 .cutBefore [])).csumIntact .p2 = true ∧
    (store (after 8 .cutBefore [])).pageState .p1 ≠ .valid ∧ (store (after 8 .cutBefore [])).quiet 8 ∧
    ((store (after 8 .cutBefore [])).drawAt 8).kind = .cutBefore ∧
    (store (after 0 .cutBefore [])).quiet 0 ∧ ((store (after 0 .cutBefore [])).drawAt 0).kind = .cutBefore := by
  refine ⟨(witness_WriteAllowed _).1, ?_⟩
  simp only [State.quiet]; decide +kernel

/-- A COPY page, cut before the last call, and an erased page, cut before the checksum. -/
theorem witness_CrashFromErasedOrCopyShowsOldOrNew :
    WriteAllowed (block retired copied .page2 .page1 (after 7 .cutBefore [])) .p2 0 1 [0] ∧
    (block retired copied .page2 .page1 (after 7 .cutBefore [])).pageState .p2 = .copy ∧
    (block retired copied .page2 .page1 (after 7 .cutBefore [])).csumIntact .p2 = true ∧
    (block retired copied .page2 .page1 (after 7 .cutBefore [])).quiet 7 ∧
    ((block retired copied .page2 .page1 (after 7 .cutBefore [])).drawAt 7).kind = .cutBefore ∧
    WriteAllowed (fresh (after 7 .cutBefore [])) .p1 0 1 [0] ∧
    (∀ o < (fresh []).cfg.pageSize, (fresh (after 7 .cutBefore [])).pageByte .p1 o = 0xFF) ∧
    (fresh (after 7 .cutBefore [])).quiet 7 ∧ ((fresh (after 7 .cutBefore [])).drawAt 7).kind = .cutBefore ∧
    ((fresh (after 7 .cutBefore [])).drawAt 8).kind = .doneOk := by
  refine ⟨⟨⟨ref16_legal, rfl, rfl⟩, ⟨rfl, rfl⟩, rfl, (by decide : 1 < 6)⟩, ?_, ?_, ?_, ?_,
    ⟨⟨ref16_legal, rfl, rfl⟩, ⟨rfl, rfl⟩, rfl, (by decide : 1 < 6)⟩, ?_⟩
  all_goals first | (simp only [State.quiet]; decide +kernel) | decide +kernel

/-- Power lost during the unlock and during the last program. -/
theorem witness_CrashDuringLaterCallsShowsOldOrNew :
    WriteAllowed (store (after 8 .cutDuring [])) .p2 2 2 [0xA5, 0x5A] ∧
    (store (after 8 .cutDuring [])).pageState .p2 = .valid ∧ (store (after 8 .cutDuring [])).csumIntact .p2 = true ∧
    (store (after 8 .cutDuring [])).pageState .p1 ≠ .valid ∧ (store (after 8 .cutDuring [])).quiet 8 ∧
    ((store (after 8 .cutDuring [])).drawAt 8).kind = .cutDuring ∧
    (store (after 1 .cutDuring [])).quiet 1 ∧ ((store (after 1 .cutDuring [])).drawAt 1).kind = .cutDuring := by
  refine ⟨(witness_WriteAllowed _).1, ?_⟩
  simp only [State.quiet]; decide +kernel

/-- The torn field of 2.7. -/
theorem witness_TornCopyMarkLosesTheStore :
    WriteAllowed (store (after 2 .cutDuring [0x00, 0xFF])) .p2 2 2 [0xA5, 0x5A] ∧
    (store (after 2 .cutDuring [0x00, 0xFF])).pageState .p2 = .valid ∧
    (store (after 2 .cutDuring [0x00, 0xFF])).quiet 2 ∧
    ((store (after 2 .cutDuring [0x00, 0xFF])).drawAt 2).kind = .cutDuring ∧
    ((store (after 2 .cutDuring [0x00, 0xFF])).drawAt 2).junk = [0x00, 0xFF] ∧
    ((store (after 2 .cutDuring [0x00, 0xFF])).drawAt 3).kind = .doneOk := by
  refine ⟨(witness_WriteAllowed _).1, ?_⟩
  simp only [State.quiet]; decide +kernel

/-- Between commands, and inside an illegal one. -/
theorem witness_ResetClearsRegistersKeepsFlash :
    legalConfig (store []).cfg = true ∧ (store []).busy = false ∧
    ({ store [] with inputs := [.reset] } : State).inputs = [.reset] ∧
    ({ store [] with inputs := [.resetInside] } : State).inputs = [.resetInside] ∧
    ({ store [] with inputs := [.frame (.host 0x12 []), .resetInside] } : State).inputs =
      [.frame (.host 0x12 []), .resetInside] ∧
    frameCmd 0x12 ≠ 0x01 ∧ frameCmd 0x12 ≠ 0x02 ∧ frameCmd 0x12 ≠ 0x03 ∧ frameCmd 0x12 ≠ 0x04 := by
  decide +kernel

/-- A command that completes, one that hangs, and one that power loss cuts. -/
theorem witness_ResetInsideACommandKeepsOnlyFlash :
    goes (exec (.read 0 1) { store [] with inputs := [] }) (fun t => ¬ t.busy) ∧
    goes (exec .massErase { store (after 0 .noCompletion []) with
      inputs := [], cfg := { Config.ref16 with waitBudget := .infinite } }) (fun t => t.busy) ∧
    goes (exec .massErase { store (after 1 .cutDuring []) with inputs := [] }) (fun t => t.drawn = 2) := by
  decide +kernel

/-- A state of a run, every clause of the invariant met, whose step goes on. -/
theorem witness_StepKeepsInvariant :
    Inv ((store []).present (.host 0x01 [])) ∧
    goes (step ((store []).present (.host 0x01 []))) (fun t => t.active = .page2) :=
  ⟨⟨.inr (.inr ⟨rfl, rfl⟩), fun _ => rfl, fun _ => rfl, (nomatch ·), by decide +kernel,
    (by simp only [inPage]; decide +kernel), by decide +kernel, by decide +kernel⟩, by decide +kernel⟩

theorem witness_OnlyInitAndWriteMoveTheStore :
    goes (exec .massErase (store (oks 2))) (fun _ => true) ∧ writeForm .massErase = false ∧
    goes (exec .massErase { store (oks 2) with inputs := [.resetInside] }) (fun t => t.active = .none) ∧
    goes (exec .init (unset [])) (fun _ => true) ∧ writeForm .init = false := by decide +kernel

theorem witness_FiniteBudgetAlwaysCompletes :
    (store (after 0 .noCompletion [])).cfg.waitBudget = .finite ∧ (store []).step = .idle ∧
    goes (exec .massErase (store (after 0 .noCompletion []))) (fun _ => true) := by decide +kernel

theorem witness_HungWriteStaysUntilReset :
    WriteAllowed { store (after 2 .noCompletion []) with cfg := { Config.ref16 with waitBudget := .infinite } }
      .p2 0 1 [0] ∧
    ({ store (after 2 .noCompletion []) with
        cfg := { Config.ref16 with waitBudget := .infinite } } : State).pageState .p2 = .valid ∧
    ({ store (after 2 .noCompletion []) with
        cfg := { Config.ref16 with waitBudget := .infinite } } : State).quiet 2 ∧
    (({ store (after 2 .noCompletion []) with
        cfg := { Config.ref16 with waitBudget := .infinite } } : State).drawAt 2).kind = .noCompletion := by
  refine ⟨⟨⟨by decide +kernel, rfl, rfl⟩, ⟨rfl, rfl⟩, rfl, (by decide : 1 < 6)⟩, ?_⟩
  simp only [State.quiet]; decide +kernel

end Sys2Proof.Tests
end

section
/-! SUPPORT. Laws of refusals and of the checksum unit (spec 00_scope.md R8; 30_encoding.md R100, R232; 41_checksum.md
R141, R142), for every statement that presents an instruction which has no meaning or that asks for a page's sum. -/

namespace Sys2Proof.Machine

/-! ### Refusals -/

theorem State.refusal_of_illegal (s : State) (h : legalConfig s.cfg = false) :
    s.refusal = some .illegalConfiguration := by
  simp [State.refusal, h]

theorem hostCommand_of_refusal {s : State} {r : Refusal} (cmd : Byte) (latch : State → State)
    (body : State → Res Unit) (h : s.refusal = some r) : hostCommand cmd latch body s = .refused r := by
  simp [hostCommand, h]

theorem readCommand_of_refusal {s : State} {r : Refusal} (addr len : Nat) (h : s.refusal = some r) :
    readCommand addr len s = .refused r :=
  hostCommand_of_refusal _ _ _ h

theorem microOperation_of_refusal {s : State} {r : Refusal} (body : Option (State → Res MicroResult))
    (h : s.refusal = some r) : microOperation body s = .refused r := by
  simp [microOperation, h]

theorem writeCommand_of_refusal {s : State} {r : Refusal} (addr len : Nat) (data : List Byte)
    (h : s.refusal = some r) : writeCommand addr len data s = .refused r := by
  simp [writeCommand, h]

/-- What stops one instruction of a state stops every one, whatever its operands: each command and each micro-operation
asks for the refusal before anything else (R8, R100, R232). -/
theorem exec_of_refusal {s : State} {r : Refusal} (i : Instr) (h : s.refusal = some r) : exec i s = .refused r := by
  cases i with
  | init | massErase => exact hostCommand_of_refusal _ _ _ h
  | read | read8 | read16 | read32 => exact readCommand_of_refusal _ _ h
  | write | write8 | write16 | write32 => exact writeCommand_of_refusal _ _ _ h
  | decodeState => exact microOperation_of_refusal (some _) h
  | advanceState | setState | csumCompute | csumStored | csumIntact =>
    exact microOperation_of_refusal _ h

/-! ### The checksum unit -/

/-- The accumulator of R141 is the sum of the bytes modulo 65536, the carries out of bit 15 being lost. -/
theorem State.sumBytes_toNat (s : State) (a n : Nat) :
    (s.sumBytes a n).toNat = ((List.range n).map fun i => (s.readU8 (a + i)).toNat).sum % 65536 := by
  induction n with
  | zero => rfl
  | succ n ih =>
    have hstep : s.sumBytes a (n + 1) = s.sumBytes a n + (s.readU8 (a + n)).setWidth 16 := by
      simp [State.sumBytes, List.range_succ]
    have hbyte : ((s.readU8 (a + n)).setWidth 16).toNat = (s.readU8 (a + n)).toNat :=
      BitVec.toNat_setWidth_of_le (by decide)
    rw [hstep, BitVec.toNat_add, hbyte, ih, List.range_succ, List.map_append, List.sum_append]
    simp

theorem State.csumCompute_toNat (s : State) (p : Page) :
    (s.csumCompute p).toNat =
      ((List.range (payloadSize s.cfg)).map fun o => (s.pageByte p o).toNat).sum % 65536 :=
  s.sumBytes_toNat (base s.cfg p) (payloadSize s.cfg)

/-- The stored checksum is the halfword at offset `P` of the page (R142). -/
theorem State.csumStored_eq (s : State) (p : Page) :
    s.csumStored p =
      composeHalf s.cfg.hwOrder (s.pageByte p (payloadSize s.cfg)) (s.pageByte p (payloadSize s.cfg + 1)) :=
  rfl

theorem State.csumIntact_eq_false (s : State) (p : Page) :
    s.csumIntact p = false ↔ s.csumStored p ≠ s.csumCompute p := by
  simp [State.csumIntact]

/-- An erased halfword is all ones in either byte order. -/
theorem composeHalf_erased (order : ByteOrder) : composeHalf order 0xFF 0xFF = 0xFFFF := by
  cases order <;> rfl

/-- An erased payload sums to `255 * P` modulo 65536 (R145). -/
theorem State.csumCompute_toNat_of_erased (s : State) (p : Page)
    (h : ∀ o < payloadSize s.cfg, s.pageByte p o = 0xFF) :
    (s.csumCompute p).toNat = 255 * payloadSize s.cfg % 65536 := by
  have hbytes : ((List.range (payloadSize s.cfg)).map fun o => (s.pageByte p o).toNat) =
      (List.range (payloadSize s.cfg)).map fun _ => 255 :=
    List.map_congr_left fun o ho => by rw [h o (List.mem_range.mp ho)]; rfl
  rw [s.csumCompute_toNat, hbytes]
  simp [Nat.mul_comm]

theorem State.csumStored_of_erased (s : State) (p : Page) (h0 : s.pageByte p (payloadSize s.cfg) = 0xFF)
    (h1 : s.pageByte p (payloadSize s.cfg + 1) = 0xFF) : s.csumStored p = 0xFFFF := by
  rw [s.csumStored_eq, h0, h1, composeHalf_erased]

/-- `P` is even in a legal configuration (R8, R9). -/
theorem payloadSize_even (c : Config) (h : legalConfig c = true) : payloadSize c % 2 = 0 := by
  obtain ⟨heven, _⟩ := (legalConfig_iff c).mp h
  have := payloadSize_add c h
  omega

end Sys2Proof.Machine
end

section
/-! The statements of spec 00_scope.md: what R7 and R8 rule out. -/

namespace Sys2Proof.Proofs

open Sys2Proof Sys2Proof.Machine

/-- Settles O6: the one refusal every instruction asks for first, and the one test every step makes first. -/
theorem illegalConfigurationIsRefused : Obligations.IllegalConfigurationIsRefused := fun s hc =>
  ⟨fun i => exec_of_refusal i (s.refusal_of_illegal hc), whenLegal_of_illegal s _ hc⟩

/-- Settles O23, by parity: the stored checksum `0xFFFF` is odd, while `P`, and so the sum `255 * P` modulo 65536, is
even. -/
theorem erasedPageIsNeverIntact : Obligations.ErasedPageIsNeverIntact := by
  intro s p hc herased
  have hsize := payloadSize_add s.cfg hc
  have hsum : (s.csumCompute p).toNat = 255 * payloadSize s.cfg % 65536 :=
    s.csumCompute_toNat_of_erased p fun o ho => herased o (by omega)
  have hstored : s.csumStored p = 0xFFFF :=
    s.csumStored_of_erased p (herased _ (by omega)) (herased _ (by omega))
  refine ⟨hsum, hstored, (s.csumIntact_eq_false p).mpr fun heq => ?_⟩
  have hodd : 255 * payloadSize s.cfg % 65536 = 65535 := by
    rw [← hsum, ← heq, hstored]; rfl
  have heven := payloadSize_even s.cfg hc
  omega

end Sys2Proof.Proofs
end

section
/-! SUPPORT. What one instruction can do, said once: the moves a run is made of, that every part of every command is a
course of such moves (spec 20_memory.md R61 to R67; 42_arbiter_init_read_erase.md; 43_arbiter_write.md), and what each
course keeps. -/

namespace Sys2Proof.Machine

/-! ### Moves and courses -/

/-- How a part of a command ends: it returns (with a value or a raised kind), a call in it never returns (R229), or
power is lost at a call (R242). -/
inductive Ending where
  | returned
  | hung
  | cut

def Res.ending {α : Type} : Res α → Ending
  | .done _ _ => .returned
  | .raised _ _ => .returned
  | .hung _ => .hung
  | .powerLost _ => .cut

@[simp] theorem Res.ending_done {α : Type} (a : α) (s : State) : (Res.done a s).ending = .returned := rfl
@[simp] theorem Res.ending_raised {α : Type} (k : ErrorKind) (s : State) :
    (Res.raised (α := α) k s).ending = .returned := rfl
@[simp] theorem Res.ending_hung {α : Type} (s : State) : (Res.hung (α := α) s).ending = .hung := rfl
@[simp] theorem Res.ending_powerLost {α : Type} (s : State) : (Res.powerLost (α := α) s).ending = .cut := rfl

@[simp] theorem Res.ending_orProgramError (r : Res Bool) : r.orProgramError.ending = r.ending := by
  rcases r with ⟨_ | _, s⟩ | _ | _ | _ <;> rfl

/-- Which page `x` an instruction run from `s₀` may designate as active, with `y` the inactive one: `INIT` a page and
the other (R153), a `WRITE` the swap of what is designated (R185). -/
def mayDesignate (i : Instr) (s₀ : State) (x y : Page) : Prop :=
  (i = .init ∧ y = otherPage x) ∨
  (writeForm i = true ∧ s₀.active = designatorOf y ∧ s₀.inactive = designatorOf x)

/-- One move of the instruction `i` that was begun in `s₀`: a register written, bytes of a page changed, or a draw
made. A call is the change of its bytes followed by its draw. -/
inductive Move (i : Instr) (s₀ s : State) : Ending → State → Prop where
  | rdata (d : List Byte) : Move i s₀ s .returned (s.setRdata d)
  | sreg (w : StateWord) : Move i s₀ s .returned (s.setSreg w)
  | acc (v : Half) : Move i s₀ s .returned (s.setAcc v)
  | designate (x y : Page) (h : mayDesignate i s₀ x y) :
      Move i s₀ s .returned (s.setDesignation (designatorOf x) (designatorOf y))
  | step (k : StepReg) (h : writeForm i = true) : Move i s₀ s .returned (s.setStep k)
  | lock (l : Lock) (h : writeForm i = true) : Move i s₀ s .returned (s.setLock l)
  | program (p : Page) (o : Nat) (v : Half) (h : o + 2 ≤ s.cfg.pageSize) :
      Move i s₀ s .returned (s.programHalf (base s.cfg p + o) v)
  | erase (p : Page) : Move i s₀ s .returned (s.setFlash (s.flash.erase (base s.cfg p) s.cfg.pageSize))
  | tear (p : Page) (l : List Byte) (h : l.length = s.cfg.pageSize) :
      Move i s₀ s .returned (s.setFlash (s.flash.writeBytes (base s.cfg p) l))
  | draw : Move i s₀ s .returned s.popDraw
  | cut (h : s.cutAt 0) : Move i s₀ s .cut s.popDraw
  | hang (h : s.cfg.waitBudget = .infinite) : Move i s₀ s .hung (s.setFbusy true)

/-- The moves of an instruction one after the other; only the last one can hang or be cut. -/
inductive Course (i : Instr) (s₀ : State) : State → Ending → State → Prop where
  | stay (s : State) : Course i s₀ s .returned s
  | move {s t : State} {e : Ending} (h : Move i s₀ s e t) : Course i s₀ s e t
  | trans {s t u : State} {e : Ending} (h : Course i s₀ s .returned t) (h' : Course i s₀ t e u) : Course i s₀ s e u

/-- A part of the instruction is a course of its moves. -/
def Res.Along {α : Type} (i : Instr) (s₀ s : State) (r : Res α) : Prop := Course i s₀ s r.ending r.state

/-! ### What every course keeps -/

section
variable {i : Instr} {s₀ s t : State} {e : Ending}

/-- What no instruction writes between its acceptance and its end. -/
structure Kept (s t : State) : Prop where
  cfg : t.cfg = s.cfg
  status : t.status = s.status
  busy : t.busy = s.busy
  cmd : t.cmd = s.cmd
  addr : t.addr = s.addr
  len : t.len = s.len
  wdata : t.wdata = s.wdata
  ures : t.ures = s.ures
  inputs : t.inputs = s.inputs

theorem Kept.refl (s : State) : Kept s s := ⟨rfl, rfl, rfl, rfl, rfl, rfl, rfl, rfl, rfl⟩

theorem Kept.trans {s t u : State} (h : Kept s t) (h' : Kept t u) : Kept s u where
  cfg := h'.cfg.trans h.cfg
  status := h'.status.trans h.status
  busy := h'.busy.trans h.busy
  cmd := h'.cmd.trans h.cmd
  addr := h'.addr.trans h.addr
  len := h'.len.trans h.len
  wdata := h'.wdata.trans h.wdata
  ures := h'.ures.trans h.ures
  inputs := h'.inputs.trans h.inputs

theorem Course.kept (h : Course i s₀ s e t) : Kept s t := by
  induction h with
  | stay s => exact .refl s
  | move h => cases h <;> exact ⟨rfl, rfl, rfl, rfl, rfl, rfl, rfl, rfl, rfl⟩
  | trans _ _ ih ih' => exact ih.trans ih'

/-- Only a form of `WRITE` moves `LOCK` and `STEP` (R27, R28). -/
theorem Course.lock_step (h : Course i s₀ s e t) (hi : writeForm i = false) : t.lock = s.lock ∧ t.step = s.step := by
  induction h with
  | stay s => exact ⟨rfl, rfl⟩
  | move h =>
    cases h with
    | step k h => simp [h] at hi
    | lock l h => simp [h] at hi
    | _ => exact ⟨rfl, rfl⟩
  | trans _ _ ih ih' => exact ⟨ih'.1.trans ih.1, ih'.2.trans ih.2⟩

/-- Only `INIT` and the forms of `WRITE` move the designators (R22). -/
theorem Course.designators (h : Course i s₀ s e t) (hi : writeForm i = false) (hn : i ≠ .init) :
    t.active = s.active ∧ t.inactive = s.inactive := by
  induction h with
  | stay s => exact ⟨rfl, rfl⟩
  | move h =>
    cases h with
    | designate x y h =>
      rcases h with ⟨h, _⟩ | ⟨h, _⟩
      · exact absurd h hn
      · simp [h] at hi
    | _ => exact ⟨rfl, rfl⟩
  | trans _ _ ih ih' => exact ⟨ih'.1.trans ih.1, ih'.2.trans ih.2⟩

/-- `FBUSY` is left 1 only by a call that never returns (R29). -/
theorem Course.fbusy (h : Course i s₀ s e t) (he : e ≠ .hung) : t.fbusy = s.fbusy := by
  induction h with
  | stay s => rfl
  | move h =>
    cases h with
    | hang h => exact absurd rfl he
    | _ => rfl
  | trans _ _ ih ih' => exact (ih' he).trans (ih (by simp))

/-- Under a finite wait budget no call hangs (R228). -/
theorem Course.not_hung (h : Course i s₀ s e t) (hf : s.cfg.waitBudget = .finite) : e ≠ .hung := by
  induction h with
  | stay s => simp
  | move h =>
    cases h with
    | hang h => simp [hf] at h
    | _ => simp
  | trans h _ _ ih' => exact ih' (by rw [h.kept.cfg, hf])

/-- The draw `k` calls from now is the draw `n + k` calls from `n` draws before. -/
theorem State.drawAt_of_drawn (n k : Nat) (h : t.drawn = s.drawn + n) (h' : t.draws = s.draws.drop n) :
    t.drawAt k = s.drawAt (n + k) := by
  simp [State.drawAt, h, h', List.getD_eq_getElem?_getD, Nat.add_assoc]

/-- The draws made are the first ones that were to come (R17). -/
theorem Course.draws (h : Course i s₀ s e t) : ∃ n, t.drawn = s.drawn + n ∧ t.draws = s.draws.drop n := by
  induction h with
  | stay s => exact ⟨0, rfl, rfl⟩
  | move h =>
    cases h with
    | draw => exact ⟨1, rfl, by simp⟩
    | cut h => exact ⟨1, rfl, by simp⟩
    | _ => exact ⟨0, rfl, rfl⟩
  | trans _ _ ih ih' =>
    obtain ⟨n, hn, hd⟩ := ih
    obtain ⟨m, hm, hd'⟩ := ih'
    exact ⟨n + m, by omega, by rw [hd', hd, List.drop_drop]⟩

/-- A course that power loss cuts ends with the draw that brings it (R242). -/
theorem Course.cutAt (h : Course i s₀ s e t) (he : e = .cut) : ∃ k, t.drawn = s.drawn + k + 1 ∧ s.cutAt k := by
  induction h with
  | stay s => cases he
  | move h =>
    cases h with
    | cut h => exact ⟨0, rfl, h⟩
    | _ => cases he
  | trans h _ _ ih' =>
    obtain ⟨n, hn, hd⟩ := h.draws
    obtain ⟨k, hk, hc⟩ := ih' he
    refine ⟨n + k, by omega, ?_⟩
    rwa [State.cutAt, State.drawAt_of_drawn n k hn hd] at hc

/-- The clauses of the invariant that hold inside a command as well as between two. -/
structure Inside (s : State) : Prop where
  pair : (s.active = .none ∧ s.inactive = .none) ∨ (s.active = .page1 ∧ s.inactive = .page2) ∨
    (s.active = .page2 ∧ s.inactive = .page1)
  canonical : s.flash.wf = true
  inPages : ∀ c ∈ s.flash, inPage s.cfg .p1 c.1 ∨ inPage s.cfg .p2 c.1
  addrFits : s.addr < 2 ^ s.cfg.addrWidth
  lenFits : s.len < 2 ^ s.cfg.addrWidth

theorem Inv.inside (h : Inv s) : Inside s := ⟨h.pair, h.canonical, h.inPages, h.addrFits, h.lenFits⟩

theorem inPage_either {c : Config} {a : Nat} (p : Page) (h : inPage c p a) : inPage c .p1 a ∨ inPage c .p2 a := by
  cases p
  · exact .inl h
  · exact .inr h

/-- New flash contents that are canonical and list only old cells and addresses of one page. -/
theorem Inside.setFlash (h : Inside s) (p : Page) (m : Memory) (hwf : m.wf = true)
    (hm : ∀ c ∈ m, inPage s.cfg p c.1 ∨ c ∈ s.flash) : Inside (s.setFlash m) :=
  { h with
    canonical := hwf
    inPages := fun c hc => (hm c hc).elim (inPage_either p) (h.inPages c) }

theorem Inside.programHalf (h : Inside s) (p : Page) (o : Nat) (v : Half) (ho : o + 2 ≤ s.cfg.pageSize) :
    Inside (s.programHalf (base s.cfg p + o) v) := by
  refine h.setFlash p _ (State.wf_programHalf s _ v h.canonical) fun c hc => ?_
  rcases Memory.mem_write _ _ _ _ hc with hc | hc
  · exact .inl ⟨by omega, by omega⟩
  · rcases Memory.mem_write _ _ _ _ hc with hc | hc
    · exact .inl ⟨by omega, by omega⟩
    · exact .inr hc

/-- What an instruction may designate keeps the pair invariant (R23), if it held where the instruction began. -/
theorem Inside.setDesignation (h : Inside s) (h₀ : Inside s₀) (x y : Page) (hd : mayDesignate i s₀ x y) :
    Inside (s.setDesignation (designatorOf x) (designatorOf y)) := by
  have hxy : y = otherPage x := by
    rcases hd with ⟨_, hy⟩ | ⟨_, ha, hb⟩
    · exact hy
    · have hp := h₀.pair
      rw [ha, hb] at hp
      revert hp
      cases x <;> cases y <;> decide
  subst hxy
  refine { h with pair := .inr ?_ }
  cases x
  · exact .inl ⟨rfl, rfl⟩
  · exact .inr ⟨rfl, rfl⟩

theorem Course.inside (h : Course i s₀ s e t) (h₀ : Inside s₀) : Inside s → Inside t := by
  induction h with
  | stay s => exact id
  | move h =>
    intro hs
    cases h with
    | designate x y hd => exact hs.setDesignation h₀ x y hd
    | program p o v ho => exact hs.programHalf p o v ho
    | erase p =>
      exact hs.setFlash p _ (Memory.wf_erase _ _ _ hs.canonical) fun c hc => .inr (Memory.mem_erase _ _ _ c hc)
    | tear p l hl =>
      refine hs.setFlash p _ (Memory.wf_writeBytes _ _ _ hs.canonical) fun c hc => ?_
      have hcell := Memory.mem_writeBytes _ _ _ c hc
      rwa [hl] at hcell
    | _ => exact { hs with }
  | trans _ _ ih ih' => exact ih' ∘ ih

end

/-! ### Every part of a command is a course -/

section
variable {i : Instr} {s₀ s : State}

theorem Res.Along.orProgramError {r : Res Bool} (h : r.Along i s₀ s) : r.orProgramError.Along i s₀ s := by
  simpa [Res.Along] using h

theorem Res.Along.andThen {α β : Type} {r : Res α} {k : α → State → Res β} (hr : r.Along i s₀ s)
    (hk : ∀ a t, r = .done a t → t.cfg = s.cfg → (k a t).Along i s₀ t) : (r.andThen k).Along i s₀ s := by
  cases r with
  | done a t => exact Course.trans hr (hk a t rfl (Course.kept hr).cfg)
  | raised e t => exact hr
  | hung t => exact hr
  | powerLost t => exact hr

theorem Res.Along.forEach {α : Type} {part : α → State → Res Unit} {l : List α}
    (h : ∀ x ∈ l, ∀ t, t.cfg = s.cfg → (part x t).Along i s₀ t) : (Res.forEach part l s).Along i s₀ s := by
  induction l generalizing s with
  | nil => exact .stay s
  | cons x rest ih =>
    refine (h x (by simp) s rfl).andThen fun _ t _ ht => ih fun y hy u hu => ?_
    exact h y (by simp [hy]) u (hu.trans ht)

theorem noCompletion_along {α : Type} (s : State) : (noCompletion (α := α) s).Along i s₀ s := by
  unfold noCompletion
  split
  · exact .stay s
  · exact .move (.hang ‹_›)

theorem Course.thenAlong {α : Type} {t : State} {r : Res α} (h : Course i s₀ s .returned t) (hr : r.Along i s₀ t) :
    r.Along i s₀ s :=
  .trans h hr

theorem State.cutAt_zero_iff {s : State} :
    s.cutAt 0 ↔ s.nextDraw.kind = .cutBefore ∨ s.nextDraw.kind = .cutDuring := by
  rw [State.nextDraw_eq_drawAt]; rfl

theorem writeU16_along (p : Page) (o : Nat) (v : Half) (ho : o + 2 ≤ s.cfg.pageSize) :
    (writeU16 (base s.cfg p + o) v s).Along i s₀ s := by
  have programmed (h : Half) : Course i s₀ s .returned (s.programHalf (base s.cfg p + o) h) :=
    .move (.program p o h ho)
  have answered (h : Half) : Course i s₀ s .returned (s.popDraw.programHalf (base s.cfg p + o) h) :=
    .trans (programmed h) (.move .draw)
  unfold writeU16
  split
  · exact .stay s
  split
  · exact .stay s
  split
  next => exact answered v
  next => exact answered _
  next => exact (answered _).thenAlong (noCompletion_along _)
  next hk => exact .move (.cut (State.cutAt_zero_iff.mpr (.inl hk)))
  next hk => exact .trans (programmed _) (.move (.cut (State.cutAt_zero_iff.mpr (.inr hk))))

theorem erasePage_along (p : Page) : (erasePage (base s.cfg p) s).Along i s₀ s := by
  have torn : Course i s₀ s .returned (s.setFlash (s.flash.writeBytes (base s.cfg p) s.tornPage)) :=
    .move (.tear p _ s.tornPage_length)
  have answered : Course i s₀ s .returned (s.tearPage (base s.cfg p)) := .trans torn (.move .draw)
  unfold erasePage
  split
  next => exact .trans (.move (.erase p)) (.move .draw)
  next => exact answered
  next => exact answered.thenAlong (noCompletion_along _)
  next hk => exact .move (.cut (State.cutAt_zero_iff.mpr (.inl hk)))
  next hk => exact .trans torn (.move (.cut (State.cutAt_zero_iff.mpr (.inr hk))))

theorem unlockFlash_along (hi : writeForm i = true) : (unlockFlash s).Along i s₀ s := by
  unfold unlockFlash
  split
  next => exact .trans (.move .draw) (.move (.lock _ hi))
  next => exact .move .draw
  next => exact .move .draw
  next hk => exact .move (.cut (State.cutAt_zero_iff.mpr (.inl hk)))
  next hk => exact .move (.cut (State.cutAt_zero_iff.mpr (.inr hk)))

theorem setField_along (hc : legalConfig s.cfg = true) (p : Page) (target : PageState) (k : Nat) (hk : k < 4) :
    (setField p target k s).Along i s₀ s := by
  have hsize := payloadSize_add s.cfg hc
  have hfield : fieldAddr s.cfg p k = base s.cfg p + (payloadSize s.cfg + 2 + 2 * k) := by
    simp only [fieldAddr]; omega
  unfold setField
  split
  · split <;> exact .stay s
  split
  · rw [hfield]
    exact (writeU16_along p _ _ (by omega)).orProgramError
  · exact .stay s

theorem setPageState_along (hc : legalConfig s.cfg = true) (p : Page) (target : PageState) :
    (setPageState p target s).Along i s₀ s :=
  .forEach fun k hk t ht => setField_along (ht ▸ hc) p target k (by simp at hk; omega)

theorem readBody_along : (readBody s).Along i s₀ s := by
  unfold readBody
  split
  · exact .stay s
  split
  · exact .move (.rdata _)
  · exact .stay s

theorem raiseFirst_along (r1 r2 : Option ErrorKind) : (raiseFirst r1 r2 s).Along i s₀ s := by
  cases r1 <;> cases r2 <;> exact .stay s

theorem Res.Along.captureErase {r : Res Bool} (h : r.Along i s₀ s) : (captureErase r).Along i s₀ s := by
  rcases r with ⟨_ | _, t⟩ | _ | _ | _ <;> exact h

theorem massEraseBody_along : (massEraseBody s).Along i s₀ s :=
  (erasePage_along .p1).captureErase.andThen fun _ _ _ _ =>
    (erasePage_along .p2).captureErase.andThen fun _ _ _ _ => raiseFirst_along _ _

theorem checkChosen_along (c : Page) : (checkChosen c s).Along i s₀ s := by
  unfold checkChosen
  split <;> exact .move (.acc _)

theorem loadSreg_course (p : Page) : Course i s₀ s .returned (s.loadSreg p) := .move (.sreg (s.stateWord p))

theorem designate_course (hi : i = .init) (c : Page) : Course i s₀ s .returned (s.designate c) :=
  .move (.designate c (otherPage c) (.inl ⟨hi, rfl⟩))

theorem freshStore_along (hi : i = .init) : (freshStore s).Along i s₀ s :=
  (erasePage_along .p1).orProgramError.andThen fun _ _ _ _ => designate_course hi .p1

/-- `INIT` with a VALID or COPY page (R153). `initBody` is unfolded as a function: on a state the kernel would compute
the page states before it unfolds. -/
theorem initBody_of_some (s : State) (c : Page) (h : selectPage (s.pageState .p1) (s.pageState .p2) = some c) :
    initBody s = checkChosen c (((s.loadSreg .p1).loadSreg .p2).designate c) := by
  refine (congrFun (by delta initBody; exact rfl) s).trans ?_
  simp only [h]

/-- `INIT` on a fresh store (R154). -/
theorem initBody_of_none (s : State) (h : selectPage (s.pageState .p1) (s.pageState .p2) = none) :
    initBody s = freshStore ((s.loadSreg .p1).loadSreg .p2) := by
  refine (congrFun (by delta initBody; exact rfl) s).trans ?_
  simp only [h]

theorem initBody_along (hi : i = .init) : (initBody s).Along i s₀ s := by
  have loaded : Course i s₀ s .returned ((s.loadSreg .p1).loadSreg .p2) :=
    (loadSreg_course .p1).trans (loadSreg_course .p2)
  cases h : selectPage (s.pageState .p1) (s.pageState .p2) with
  | some c => rw [initBody_of_some s c h]; exact (loaded.trans (designate_course hi c)).thenAlong (checkChosen_along c)
  | none => rw [initBody_of_none s h]; exact loaded.thenAlong (freshStore_along hi)

/-! #### The ten steps of WRITE -/

theorem writeStep1_along (hi : writeForm i = true) (b : Page) : (writeStep1 b s).Along i s₀ s :=
  (Course.move (.step .s1 hi)).thenAlong (erasePage_along (s := s.setStep .s1) b).orProgramError

theorem writeStep2_along (hi : writeForm i = true) : (writeStep2 s).Along i s₀ s :=
  (Course.move (.step .s2 hi)).thenAlong <| (unlockFlash_along hi).andThen fun l t _ _ => by
    split <;> exact .stay t

/-- Steps 3, 4, 7 and 8 each mark a page (R178, R179, R183, R184). -/
theorem markStep_along (hi : writeForm i = true) (hc : legalConfig s.cfg = true) (k : StepReg) (p : Page)
    (target : PageState) : (setPageState p target (s.setStep k)).Along i s₀ s :=
  (Course.move (.step k hi)).thenAlong (setPageState_along (s := s.setStep k) hc p target)

theorem streamHalf_along (a b : Page) (off : Nat) (ho : off + 2 ≤ s.cfg.pageSize) :
    (streamHalf a b off s).Along i s₀ s := by
  unfold streamHalf
  split
  · exact (writeU16_along b off _ ho).orProgramError
  · exact .stay s

theorem halfOffsets_fit (c : Config) (off : Nat) (h : off ∈ halfOffsets c) : off + 2 ≤ payloadSize c := by
  simp only [halfOffsets, List.mem_map, List.mem_range] at h
  obtain ⟨j, hj, rfl⟩ := h
  omega

theorem writeStep5_along (hi : writeForm i = true) (hc : legalConfig s.cfg = true) (a b : Page) :
    (writeStep5 a b s).Along i s₀ s := by
  refine (Course.move (.step .s5 hi)).thenAlong (.forEach fun off ho t ht => ?_)
  have hsize := payloadSize_add s.cfg hc
  have hfit := halfOffsets_fit s.cfg off ho
  have hcfg : t.cfg = s.cfg := ht
  exact streamHalf_along a b off (by rw [hcfg]; omega)

theorem writeStep6_along (hi : writeForm i = true) (hc : legalConfig s.cfg = true) (b : Page) :
    (writeStep6 b s).Along i s₀ s := by
  have hfit : payloadSize s.cfg + 2 ≤ s.cfg.pageSize := by
    have := payloadSize_add s.cfg hc
    omega
  exact ((Course.move (.step .s6 hi)).trans (.move (.acc _))).thenAlong
    (writeU16_along (s := (s.setStep .s6).loadAcc b) b (payloadSize s.cfg) _ hfit).orProgramError

theorem writeStep9_along (hi : writeForm i = true) (a b : Page) (ha : s₀.active = designatorOf a)
    (hb : s₀.inactive = designatorOf b) : (writeStep9 a b s).Along i s₀ s :=
  .trans (.move (.step .s9 hi)) (.move (.designate b a (.inr ⟨hi, ha, hb⟩)))

theorem writeStep10_along (hi : writeForm i = true) : (writeStep10 s).Along i s₀ s :=
  .trans (.move (.step .s10 hi)) (.move (.lock .locked hi))

theorem writeSteps_along (hi : writeForm i = true) (hc : legalConfig s.cfg = true) (a b : Page)
    (ha : s₀.active = designatorOf a) (hb : s₀.inactive = designatorOf b) : (writeSteps a b s).Along i s₀ s :=
  (writeStep1_along hi b).andThen fun _ _ _ h1 =>
  (writeStep2_along hi).andThen fun _ _ _ h2 =>
  (markStep_along hi (by rwa [h2, h1]) .s3 a .copy).andThen fun _ _ _ h3 =>
  (markStep_along hi (by rwa [h3, h2, h1]) .s4 b .write).andThen fun _ _ _ h4 =>
  (writeStep5_along hi (by rwa [h4, h3, h2, h1]) a b).andThen fun _ _ _ h5 =>
  (writeStep6_along hi (by rwa [h5, h4, h3, h2, h1]) b).andThen fun _ _ _ h6 =>
  (markStep_along hi (by rwa [h6, h5, h4, h3, h2, h1]) .s7 b .valid).andThen fun _ _ _ h7 =>
  (markStep_along hi (by rwa [h7, h6, h5, h4, h3, h2, h1]) .s8 a .invalid).andThen fun _ _ _ _ =>
  (writeStep9_along hi a b ha hb).andThen fun _ _ _ _ =>
  writeStep10_along hi

theorem writeBody_along (hi : writeForm i = true) (hc : legalConfig s.cfg = true) : (writeBody s).Along i s s := by
  unfold writeBody
  split
  next a b ha hb =>
    split
    · exact writeSteps_along hi hc a b ((pageOf_eq_some _ _).mp ha) ((pageOf_eq_some _ _).mp hb)
    · exact .stay s
  next => exact .stay s

end

end Sys2Proof.Machine
end

section
/-! SUPPORT. No part of a command looks at the inputs: what a command does between its acceptance and its end is the
same whatever the outside delivers behind it (spec 30_encoding.md R100; 70_reset_and_hazards.md R240). -/

namespace Sys2Proof.Machine

/-- The same end with other inputs to come. -/
def Res.withInputs {α : Type} (l : List Input) : Res α → Res α
  | .done a s => .done a (s.setInputs l)
  | .raised k s => .raised k (s.setInputs l)
  | .hung s => .hung (s.setInputs l)
  | .powerLost s => .powerLost (s.setInputs l)

/-- What the part does does not depend on the inputs, and it leaves them. -/
def IgnoresInputs {α : Type} (part : State → Res α) : Prop :=
  ∀ (s : State) (l : List Input), part (s.setInputs l) = (part s).withInputs l

@[simp] theorem State.nextDraw_setInputs (s : State) (l : List Input) : (s.setInputs l).nextDraw = s.nextDraw := rfl
@[simp] theorem State.pageState_setInputs (s : State) (l : List Input) (p : Page) :
    (s.setInputs l).pageState p = s.pageState p := rfl
@[simp] theorem State.loadSreg_setInputs (s : State) (l : List Input) (p : Page) :
    (s.setInputs l).loadSreg p = (s.loadSreg p).setInputs l := rfl

section
variable {α β : Type}

/-- A test that does not depend on the inputs. -/
theorem Res.ite_withInputs {c : Prop} {d d' : Decidable c} {l : List Input} {x x' y y' : Res α}
    (hx : c → x' = x.withInputs l) (hy : ¬ c → y' = y.withInputs l) :
    @ite _ c d x' y' = (@ite _ c d' x y).withInputs l := by
  by_cases h : c
  · rw [if_pos h, if_pos h, hx h]
  · rw [if_neg h, if_neg h, hy h]

theorem IgnoresInputs.andThen {f : State → Res α} {k : α → State → Res β} (hf : IgnoresInputs f)
    (hk : ∀ a, IgnoresInputs (k a)) : IgnoresInputs fun s => (f s).andThen k := by
  intro s l
  simp only [hf s l]
  cases f s with
  | done a t => exact hk a t l
  | _ => rfl

theorem Res.withInputs_orProgramError (r : Res Bool) (l : List Input) :
    (r.withInputs l).orProgramError = r.orProgramError.withInputs l := by
  rcases r with ⟨_ | _, t⟩ | _ | _ | _ <;> rfl

theorem Res.withInputs_captureErase (r : Res Bool) (l : List Input) :
    captureErase (r.withInputs l) = (captureErase r).withInputs l := by
  rcases r with ⟨_ | _, t⟩ | _ | _ | _ <;> rfl

theorem IgnoresInputs.forEach {part : α → State → Res Unit} (hp : ∀ x, IgnoresInputs (part x)) (xs : List α) :
    IgnoresInputs (Res.forEach part xs) := by
  induction xs with
  | nil => exact fun _ _ => rfl
  | cons x rest ih => exact (hp x).andThen fun _ => ih

theorem noCompletion_ignoresInputs : IgnoresInputs (noCompletion (α := α)) := by
  intro s l
  unfold noCompletion
  simp only [State.setInputs_cfg]
  split <;> rfl

end

theorem writeU16_ignoresInputs (a : Nat) (v : Half) : IgnoresInputs (writeU16 a v) := by
  intro s l
  refine Res.ite_withInputs (fun _ => rfl) fun _ => Res.ite_withInputs (fun _ => rfl) fun _ => ?_
  simp only [State.nextDraw_setInputs]
  cases s.nextDraw.kind with
  | noCompletion => exact noCompletion_ignoresInputs (s.popDraw.programHalf a (s.tornHalf v)) l
  | _ => rfl

theorem erasePage_ignoresInputs (a : Nat) : IgnoresInputs (erasePage a) := by
  intro s l
  simp only [erasePage, State.nextDraw_setInputs]
  cases s.nextDraw.kind with
  | noCompletion => exact noCompletion_ignoresInputs (s.tearPage a) l
  | _ => rfl

theorem unlockFlash_ignoresInputs : IgnoresInputs unlockFlash := by
  intro s l
  simp only [unlockFlash, State.nextDraw_setInputs]
  split <;> rfl

/-- A program whose failure is raised. -/
theorem programOrRaise_ignoresInputs (a : Nat) (v : Half) : IgnoresInputs fun s => (writeU16 a v s).orProgramError :=
  fun s l => (congrArg Res.orProgramError (writeU16_ignoresInputs a v s l)).trans (Res.withInputs_orProgramError _ l)

/-- An erase whose failure is raised. -/
theorem eraseOrRaise_ignoresInputs (a : Nat) : IgnoresInputs fun s => (erasePage a s).orProgramError :=
  fun s l => (congrArg Res.orProgramError (erasePage_ignoresInputs a s l)).trans (Res.withInputs_orProgramError _ l)

theorem setField_ignoresInputs (p : Page) (target : PageState) (k : Nat) : IgnoresInputs (setField p target k) :=
  fun s l => Res.ite_withInputs (fun _ => Res.ite_withInputs (fun _ => rfl) fun _ => rfl) fun _ =>
    Res.ite_withInputs (fun _ => programOrRaise_ignoresInputs (fieldAddr s.cfg p k) 0x0000 s l) fun _ => rfl

theorem setPageState_ignoresInputs (p : Page) (target : PageState) : IgnoresInputs (setPageState p target) :=
  .forEach (setField_ignoresInputs p target) _

theorem readBody_ignoresInputs : IgnoresInputs readBody := by
  intro s l
  simp only [readBody, State.setInputs_active, State.setInputs_addr, State.setInputs_len, State.setInputs_cfg]
  cases pageOf s.active with
  | none => rfl
  | some p => exact Res.ite_withInputs (fun _ => rfl) fun _ => rfl

theorem raiseFirst_ignoresInputs (r1 r2 : Option ErrorKind) : IgnoresInputs (raiseFirst r1 r2) := by
  intro s l
  cases r1 <;> cases r2 <;> rfl

theorem eraseOf_ignoresInputs (p : Page) :
    IgnoresInputs fun s => captureErase (erasePage (base s.cfg p) s) := by
  intro s l
  simp only [State.setInputs_cfg, erasePage_ignoresInputs (base s.cfg p) s l, Res.withInputs_captureErase]

theorem massEraseBody_ignoresInputs : IgnoresInputs massEraseBody :=
  (eraseOf_ignoresInputs .p1).andThen fun r1 => (eraseOf_ignoresInputs .p2).andThen fun r2 =>
    raiseFirst_ignoresInputs r1 r2

theorem checkChosen_ignoresInputs (c : Page) : IgnoresInputs (checkChosen c) :=
  fun _ _ => Res.ite_withInputs (fun _ => rfl) fun _ => rfl

theorem freshStore_ignoresInputs : IgnoresInputs freshStore :=
  IgnoresInputs.andThen (f := fun s => (erasePage (base s.cfg .p1) s).orProgramError)
    (fun s l => eraseOrRaise_ignoresInputs (base s.cfg .p1) s l) fun _ _ _ => rfl

theorem initBody_ignoresInputs : IgnoresInputs initBody := by
  intro s l
  cases h : selectPage (s.pageState .p1) (s.pageState .p2) with
  | some c =>
    rw [initBody_of_some s c h, initBody_of_some (s.setInputs l) c (by simpa using h), State.loadSreg_setInputs,
      State.loadSreg_setInputs]
    exact checkChosen_ignoresInputs c (((s.loadSreg .p1).loadSreg .p2).designate c) l
  | none =>
    rw [initBody_of_none s h, initBody_of_none (s.setInputs l) (by simpa using h), State.loadSreg_setInputs,
      State.loadSreg_setInputs]
    exact freshStore_ignoresInputs ((s.loadSreg .p1).loadSreg .p2) l

theorem streamHalf_ignoresInputs (a b : Page) (off : Nat) : IgnoresInputs (streamHalf a b off) :=
  fun s l => Res.ite_withInputs
    (fun _ => programOrRaise_ignoresInputs (base s.cfg b + off) (s.mergedHalf a off) s l) fun _ => rfl

theorem writeStep1_ignoresInputs (b : Page) : IgnoresInputs (writeStep1 b) :=
  fun s l => eraseOrRaise_ignoresInputs (base s.cfg b) (s.setStep .s1) l

theorem writeStep2_ignoresInputs : IgnoresInputs writeStep2 := by
  refine IgnoresInputs.andThen (f := fun s => unlockFlash (s.setStep .s2))
    (fun s l => unlockFlash_ignoresInputs (s.setStep .s2) l) fun lock t l => ?_
  cases lock <;> rfl

theorem markStep_ignoresInputs (k : StepReg) (p : Page) (target : PageState) :
    IgnoresInputs fun s => setPageState p target (s.setStep k) :=
  fun s l => setPageState_ignoresInputs p target (s.setStep k) l

theorem writeStep5_ignoresInputs (a b : Page) : IgnoresInputs (writeStep5 a b) :=
  fun s l => IgnoresInputs.forEach (streamHalf_ignoresInputs a b) (halfOffsets s.cfg) (s.setStep .s5) l

theorem writeStep6_ignoresInputs (b : Page) : IgnoresInputs (writeStep6 b) :=
  fun s l => programOrRaise_ignoresInputs (checksumAddr s.cfg b) (s.csumCompute b) ((s.setStep .s6).loadAcc b) l

theorem writeSteps_ignoresInputs (a b : Page) : IgnoresInputs (writeSteps a b) :=
  (writeStep1_ignoresInputs b).andThen fun _ =>
  writeStep2_ignoresInputs.andThen fun _ =>
  (markStep_ignoresInputs .s3 a .copy).andThen fun _ =>
  (markStep_ignoresInputs .s4 b .write).andThen fun _ =>
  (writeStep5_ignoresInputs a b).andThen fun _ =>
  (writeStep6_ignoresInputs b).andThen fun _ =>
  (markStep_ignoresInputs .s7 b .valid).andThen fun _ =>
  (markStep_ignoresInputs .s8 a .invalid).andThen fun _ =>
  IgnoresInputs.andThen (f := writeStep9 a b) (fun _ _ => rfl) fun _ _ _ => rfl

theorem writeBody_ignoresInputs : IgnoresInputs writeBody := by
  intro s l
  simp only [writeBody, State.setInputs_active, State.setInputs_inactive]
  split
  next a b _ _ => exact Res.ite_withInputs (fun _ => writeSteps_ignoresInputs a b s l) fun _ => rfl
  next => rfl

end Sys2Proof.Machine
end

section
/-! SUPPORT. The run of one instruction: what an instruction that answers a next state has done, how the state it leaves
comes from the one its course ends in, and how it leaves `LOCK` (spec 30_encoding.md R100; 60_exceptions.md R218;
70_reset_and_hazards.md R240 to R243). -/

namespace Sys2Proof.Machine

/-! ### How an instruction ends -/

theorem State.endIn_cases (s t : State) : (s.resetInside = true ∧ s.endIn t = s.takeReset) ∨ s.endIn t = t := by
  cases h : s.resetInside <;> simp [h]

/-- The state a host command leaves, by how its course ends: reset inside it, completed or aborted, hung, cut. -/
theorem Res.settle_ends (r : Res Unit) :
    (r.state.resetInside = true ∧ r.settle = r.state.takeReset) ∨
    (r.ending = .returned ∧ ∃ l k, (l = r.state.lock ∨ (r.state.cmd = 0x03 ∧ l = .locked)) ∧
      r.settle = { r.state with lock := l, step := .idle, status := k, busy := false }) ∨
    (r.ending = .hung ∧ r.settle = r.state) ∨ (r.ending = .cut ∧ r.settle = r.state.powerCycle) := by
  cases r with
  | done u s =>
    refine (s.endIn_cases (s.complete .ok)).imp id fun h => .inl ⟨rfl, s.lock, .ok, .inl rfl, h⟩
  | raised k s =>
    refine (s.endIn_cases (s.abort k)).imp id fun h => .inl ⟨rfl, (s.abort k).lock, .error k, ?_, ?_⟩
    · rw [State.abort_eq]
      split
      next hc => exact .inr ⟨hc.1, rfl⟩
      next => exact .inl rfl
    · rw [Res.settle_raised, h, State.abort_eq]; rfl
  | hung s => exact .inr (.inr (.inl ⟨rfl, rfl⟩))
  | powerLost s => exact .inr (.inr (.inr ⟨rfl, rfl⟩))

/-- The state a micro-operation presented alone leaves, by how its course ends. -/
theorem Res.settleMicro_ends (r : Res MicroResult) :
    (r.state.resetInside = true ∧ r.settleMicro = r.state.takeReset) ∨
    (r.ending = .returned ∧ ∃ a, r.settleMicro = r.state.setUres a) ∨
    (r.ending = .hung ∧ r.settleMicro = r.state.setBusy true) ∨
    (r.ending = .cut ∧ r.settleMicro = r.state.powerCycle) := by
  cases r with
  | done a s => exact (s.endIn_cases (s.setUres a)).imp id fun h => .inl ⟨rfl, a, h⟩
  | raised k s => exact (s.endIn_cases (s.setUres (.raised k))).imp id fun h => .inl ⟨rfl, .raised k, h⟩
  | hung s => exact .inr (.inr (.inl ⟨rfl, rfl⟩))
  | powerLost s => exact .inr (.inr (.inr ⟨rfl, rfl⟩))

/-- However a micro-operation ends, flash is as its course left it. -/
@[simp] theorem Res.settleMicro_flash (r : Res MicroResult) : r.settleMicro.flash = r.state.flash := by
  rcases r.settleMicro_ends with ⟨_, h⟩ | ⟨_, _, h⟩ | ⟨_, h⟩ | ⟨_, h⟩ <;> rw [h] <;> rfl

@[simp] theorem Res.settleMicro_drawn (r : Res MicroResult) : r.settleMicro.drawn = r.state.drawn := by
  rcases r.settleMicro_ends with ⟨_, h⟩ | ⟨_, _, h⟩ | ⟨_, h⟩ | ⟨_, h⟩ <;> rw [h] <;> rfl

@[simp] theorem Res.settle_drawn (r : Res Unit) : r.settle.drawn = r.state.drawn := by
  rcases r.settle_ends with ⟨_, h⟩ | ⟨_, _, _, _, h⟩ | ⟨_, h⟩ | ⟨_, h⟩ <;> rw [h] <;> rfl

/-! ### The run of an instruction that answers a next state -/

/-- `ADDR` and `LEN` once the instruction is accepted: its own operands, or what was latched before. -/
def latchedOperands (s : State) : Instr → Nat × Nat
  | .read addr len => (addr, len)
  | .write addr len _ => (addr, len)
  | .read8 addr => (addr, 1)
  | .read16 addr => (addr, 2)
  | .read32 addr => (addr, 4)
  | .write8 addr _ => (addr, 1)
  | .write16 addr _ => (addr, 2)
  | .write32 addr _ => (addr, 4)
  | .init => (s.addr, s.len)
  | .massErase => (s.addr, s.len)
  | .decodeState _ => (s.addr, s.len)
  | .advanceState _ => (s.addr, s.len)
  | .setState _ _ => (s.addr, s.len)
  | .csumCompute _ => (s.addr, s.len)
  | .csumStored _ => (s.addr, s.len)
  | .csumIntact _ => (s.addr, s.len)

/-- A host command accepted from `s` in `m`, whose body ends as `r` and which leaves `t`. -/
structure CommandRun (i : Instr) (s m : State) (r : Res Unit) (t : State) : Prop where
  accepted : m = { s with
    cmd := m.cmd
    busy := true
    step := m.step
    addr := (latchedOperands s i).1
    len := (latchedOperands s i).2
    wdata := m.wdata }
  code : m.cmd = 0x03 ↔ writeForm i = true
  body : writeForm i = true → r = writeBody m
  along : r.Along i m m
  ends : t = r.settle
  otherInputs : ∀ l, exec i (s.setInputs l) = .next (r.withInputs l).settle

/-- A micro-operation presented alone in `s`, which ends as `r` and leaves `t`. -/
structure MicroRun (i : Instr) (s : State) (r : Res MicroResult) (t : State) : Prop where
  notWrite : writeForm i = false
  along : r.Along i s s
  ends : t = r.settleMicro
  otherInputs : ∀ l, exec i (s.setInputs l) = .next (r.withInputs l).settleMicro

/-- An instruction that answers a next state: the block is free, its configuration legal, and the instruction runs as a
host command or as a micro-operation. -/
inductive Runs (i : Instr) (s t : State) : Prop where
  | command (m : State) (r : Res Unit) (hb : s.busy = false) (hc : legalConfig s.cfg = true) (h : CommandRun i s m r t)
  | micro (r : Res MicroResult) (hb : s.busy = false) (hc : legalConfig s.cfg = true) (h : MicroRun i s r t)

section
variable {i : Instr} {s t : State}

theorem hostCommand_runs {cmd : Byte} {latch : State → State} {body : State → Res Unit}
    (hexec : exec i = hostCommand cmd latch body) (h : exec i s = .next t) (hi : writeForm i = false)
    (hcmd : cmd ≠ 0x03) (hlatch : latch (s.accept cmd) =
      (s.accept cmd).setOperands (latchedOperands s i).1 (latchedOperands s i).2)
    (hinputs : ∀ l, latch ((s.setInputs l).accept cmd) = (latch (s.accept cmd)).setInputs l)
    (halong : ∀ m, (body m).Along i m m) (hbody : IgnoresInputs body) : Runs i s t := by
  rw [hexec] at h
  obtain ⟨hb, hc, ht⟩ := (hostCommand_eq_next _ _ _ _ _).mp h
  refine .command (latch (s.accept cmd)) (body (latch (s.accept cmd))) hb hc ⟨?_, ?_, ?_, halong _, ht, fun l => ?_⟩
  · rw [hlatch]; rfl
  · rw [hlatch, hi]; simpa using hcmd
  · simp [hi]
  · rw [hexec, hostCommand_eq_next, hinputs, hbody]
    exact ⟨hb, hc, rfl⟩

theorem readCommand_runs {addr len : Nat} (hexec : exec i = readCommand addr len) (h : exec i s = .next t)
    (hi : writeForm i = false) (hops : latchedOperands s i = (addr, len)) : Runs i s t :=
  hostCommand_runs (cmd := 0x02) (latch := fun s => s.setOperands addr len) hexec h hi (by decide) (by rw [hops])
    (fun _ => rfl) (fun _ => readBody_along) readBody_ignoresInputs

theorem writeCommand_runs {addr len : Nat} {data : List Byte}
    (hexec : ∀ l, exec i (s.setInputs l) = writeCommand addr len data (s.setInputs l)) (h : exec i s = .next t)
    (hi : writeForm i = true) (hops : latchedOperands s i = (addr, len)) : Runs i s t := by
  rw [show exec i s = writeCommand addr len data s from hexec s.inputs] at h
  obtain ⟨hb, hc, hlen, hpair, ht⟩ := (writeCommand_eq_next _ _ _ _ _).mp h
  refine .command (((s.accept 0x03).setOperands addr len).setWdata data) _ hb hc
    ⟨?_, by simp [hi], fun _ => rfl, writeBody_along hi hc, ht, fun l => ?_⟩
  · rw [hops]; rfl
  · rw [hexec, writeCommand_eq_next, ← writeBody_ignoresInputs]
    exact ⟨hb, hc, hlen, hpair, rfl⟩

theorem microOperation_runs {run : State → Res MicroResult} (hexec : exec i = microOperation (some run))
    (h : exec i s = .next t) (hi : writeForm i = false) (halong : legalConfig s.cfg = true → (run s).Along i s s)
    (hinputs : IgnoresInputs run) : Runs i s t := by
  rw [hexec] at h
  obtain ⟨hb, hc, ht⟩ := (microOperation_eq_next _ _ _).mp h
  refine .micro (run s) hb hc ⟨hi, halong hc, ht, fun l => ?_⟩
  rw [hexec, microOperation_eq_next, hinputs]
  exact ⟨hb, hc, rfl⟩

/-- Where an operand is outside its domain the micro-operation is refused (R104). -/
theorem microOperation_none_ne_next : microOperation none s ≠ .next t := by
  unfold microOperation
  cases s.refusal <;> simp

theorem pageOperation_runs {page : Designator} {run : Page → State → Res MicroResult}
    (hexec : exec i = microOperation (onPage page run)) (h : exec i s = .next t) (hi : writeForm i = false)
    (halong : ∀ p, legalConfig s.cfg = true → (run p s).Along i s s) (hinputs : ∀ p, IgnoresInputs (run p)) :
    Runs i s t := by
  cases hp : pageOf page with
  | none =>
    rw [hexec, onPage, hp] at h
    exact absurd h microOperation_none_ne_next
  | some p =>
    rw [onPage, hp] at hexec
    exact microOperation_runs hexec h hi (halong p) (hinputs p)

/-- `SET_STATE` with a target in its domain is the codec's pass over the fields (R104, R126). -/
theorem exec_setState (page : Designator) {target : PageState} (ht : targetOperandOk target = true) :
    exec (.setState page target) =
      microOperation (onPage page fun p s => (setPageState p target s).andThen fun _ t => .done .ok t) := by
  funext s
  rw [show exec (.setState page target) s = execSetState page target s from rfl, execSetState, ht, if_pos rfl]

/-- Everything an instruction that answers a next state can have done. -/
theorem exec_runs (h : exec i s = .next t) : Runs i s t := by
  cases i with
  | init =>
    exact hostCommand_runs (cmd := 0x01) (latch := id) rfl h rfl (by decide) rfl (fun _ => rfl)
      (fun _ => initBody_along rfl) initBody_ignoresInputs
  | massErase =>
    exact hostCommand_runs (cmd := 0x04) (latch := id) rfl h rfl (by decide) rfl (fun _ => rfl)
      (fun _ => massEraseBody_along) massEraseBody_ignoresInputs
  | read | read8 | read16 | read32 => exact readCommand_runs rfl h rfl rfl
  | write | write8 => exact writeCommand_runs (fun _ => rfl) h rfl rfl
  | write16 addr v => exact writeCommand_runs (data := bytes2 s.cfg.accOrder v) (fun _ => rfl) h rfl rfl
  | write32 addr v => exact writeCommand_runs (data := bytes4 s.cfg.accOrder v) (fun _ => rfl) h rfl rfl
  | decodeState raw =>
    exact microOperation_runs (run := .done (.state (decodeStateWord raw))) rfl h rfl (fun _ => .stay s) fun _ _ => rfl
  | advanceState page => exact pageOperation_runs rfl h rfl (fun p _ => loadSreg_course p) fun _ _ _ => rfl
  | csumCompute page => exact pageOperation_runs rfl h rfl (fun _ _ => .move (.acc _)) fun _ _ _ => rfl
  | csumStored page => exact pageOperation_runs rfl h rfl (fun _ _ => .stay s) fun _ _ _ => rfl
  | csumIntact page => exact pageOperation_runs rfl h rfl (fun _ _ => .move (.acc _)) fun _ _ _ => rfl
  | setState page target =>
    cases htarget : targetOperandOk target with
    | false =>
      rw [show exec (.setState page target) s = execSetState page target s from rfl, execSetState, htarget] at h
      exact absurd h microOperation_none_ne_next
    | true =>
      exact pageOperation_runs (exec_setState page htarget) h rfl
        (fun p hc => (setPageState_along hc p target).andThen fun _ t _ _ => Course.stay t)
        fun p => (setPageState_ignoresInputs p target).andThen fun _ _ _ => rfl

end

/-! ### LOCK at the end of a run -/

/-- A state of a `WRITE` in which the unlock of step 2 has been attempted, so that an abort locks (R218). -/
def UnlockAttempted (s : State) : Prop := s.cmd = 0x03 ∧ 2 ≤ stepNumber s.step

theorem UnlockAttempted.of_flashOnly {s t : State} (h : FlashOnly s t) (hs : UnlockAttempted s) : UnlockAttempted t :=
  ⟨h.cmd.trans hs.1, h.step ▸ hs.2⟩

theorem State.abort_lock_of_unlockAttempted (s : State) (h : UnlockAttempted s) (k : ErrorKind) :
    (s.abort k).lock = .locked := by
  rw [State.abort_eq]; exact if_pos h

theorem State.abort_lock (s : State) (k : ErrorKind) : (s.abort k).lock = s.lock ∨ (s.abort k).lock = .locked := by
  rw [State.abort_eq]
  split
  · exact .inr rfl
  · exact .inl rfl

theorem unlockFlash_cmd_step (s : State) :
    (unlockFlash s).state.cmd = s.cmd ∧ (unlockFlash s).state.step = s.step := by
  rcases unlockFlash_cases s with ⟨_, h⟩ | ⟨_, h⟩ | ⟨_, h⟩ <;> rw [h] <;> exact ⟨rfl, rfl⟩

theorem UnlockAttempted.setStep {s : State} (k : StepReg) (hk : 2 ≤ stepNumber k) (hcmd : s.cmd = 0x03) :
    UnlockAttempted (s.setStep k) := ⟨hcmd, hk⟩

theorem writeStep2_unlockAttempted (s : State) (hcmd : s.cmd = 0x03) : UnlockAttempted (writeStep2 s).state := by
  obtain ⟨hc, hs⟩ := unlockFlash_cmd_step (s.setStep .s2)
  have hstate : (writeStep2 s).state = (unlockFlash (s.setStep .s2)).state := by
    unfold writeStep2
    cases unlockFlash (s.setStep .s2) with
    | done l t => cases l <;> rfl
    | _ => rfl
  rw [hstate]
  exact ⟨hc.trans hcmd, hs ▸ (by decide : 2 ≤ stepNumber .s2)⟩

theorem markStep_unlockAttempted (k : StepReg) (hk : 2 ≤ stepNumber k) (p : Page) (target : PageState) (s : State)
    (hcmd : s.cmd = 0x03) : UnlockAttempted (setPageState p target (s.setStep k)).state :=
  (UnlockAttempted.setStep k hk hcmd).of_flashOnly (setPageState_flashOnly _ _ _)

theorem writeStep5_unlockAttempted (a b : Page) (s : State) (hcmd : s.cmd = 0x03) :
    UnlockAttempted (writeStep5 a b s).state :=
  (UnlockAttempted.setStep .s5 (by decide) hcmd).of_flashOnly
    (Res.rel_forEach FlashOnly.refl FlashOnly.trans (fun off _ s => streamHalf_flashOnly a b off s) _)

theorem writeStep6_unlockAttempted (b : Page) (s : State) (hcmd : s.cmd = 0x03) :
    UnlockAttempted (writeStep6 b s).state := by
  have h : UnlockAttempted ((s.setStep .s6).loadAcc b) := UnlockAttempted.setStep .s6 (by decide) hcmd
  rw [writeStep6, Res.state_orProgramError]
  exact h.of_flashOnly (writeU16_flashOnly _ _ _)

theorem UnlockAttempted.andThen {α β : Type} {s : State} {r : Res α} {k : α → State → Res β}
    (hr : s.cmd = 0x03 → UnlockAttempted r.state) (hk : ∀ a t, t.cmd = 0x03 → UnlockAttempted (k a t).state) :
    s.cmd = 0x03 → UnlockAttempted (r.andThen k).state :=
  Res.rel_andThen (R := fun t u => t.cmd = 0x03 → UnlockAttempted u) (fun _ _ _ h h' ht => h' (h ht).1) hr
    fun a t _ => hk a t

/-- Steps 2 to 10 (R177 to R186), wherever they end. -/
theorem writeStepsFrom2_unlockAttempted (a b : Page) (s : State) (hcmd : s.cmd = 0x03) :
    UnlockAttempted ((writeStep2 s).andThen fun _ s => (writeStep3 a s).andThen fun _ s =>
      (writeStep4 b s).andThen fun _ s => (writeStep5 a b s).andThen fun _ s => (writeStep6 b s).andThen fun _ s =>
      (writeStep7 b s).andThen fun _ s => (writeStep8 a s).andThen fun _ s => (writeStep9 a b s).andThen fun _ s =>
      writeStep10 s).state := by
  exact UnlockAttempted.andThen (writeStep2_unlockAttempted s) (fun _ s =>
    .andThen (markStep_unlockAttempted .s3 (by decide) a .copy s) fun _ s =>
    .andThen (markStep_unlockAttempted .s4 (by decide) b .write s) fun _ s =>
    .andThen (writeStep5_unlockAttempted a b s) fun _ s =>
    .andThen (writeStep6_unlockAttempted b s) fun _ s =>
    .andThen (markStep_unlockAttempted .s7 (by decide) b .valid s) fun _ s =>
    .andThen (markStep_unlockAttempted .s8 (by decide) a .invalid s) fun _ s =>
    .andThen (r := writeStep9 a b s) (UnlockAttempted.setStep .s9 (by decide)) fun _ _ =>
    UnlockAttempted.setStep .s10 (by decide)) hcmd

/-- Wherever the steps of a `WRITE` end, `LOCK` is as before or the unlock has been attempted. -/
theorem writeSteps_lock (a b : Page) (s : State) (hcmd : s.cmd = 0x03) :
    (writeSteps a b s).state.lock = s.lock ∨ UnlockAttempted (writeSteps a b s).state := by
  have h1 : FlashOnly (s.setStep .s1) (writeStep1 b s).state := by
    rw [writeStep1, Res.state_orProgramError]; exact erasePage_flashOnly _ _
  unfold writeSteps
  cases hr : writeStep1 b s with
  | done u t =>
    rw [hr] at h1
    exact .inr (writeStepsFrom2_unlockAttempted a b t (h1.cmd.trans hcmd))
  | _ => rw [hr] at h1; exact .inl h1.lock

theorem Res.andThen_eq_done {α β : Type} {r : Res α} {k : α → State → Res β} {b : β} {u : State}
    (h : r.andThen k = .done b u) : ∃ a t, k a t = .done b u := by
  cases r with
  | done a t => exact ⟨a, t, h⟩
  | _ => cases h

/-- A `WRITE` whose ten steps are done has locked flash (R186). -/
theorem writeSteps_done_lock {a b : Page} {s t : State} (h : writeSteps a b s = .done () t) : t.lock = .locked := by
  unfold writeSteps at h
  iterate 9 obtain ⟨_, _, h⟩ := Res.andThen_eq_done h
  cases h
  rfl

theorem writeBody_lock (s : State) (hcmd : s.cmd = 0x03) :
    (writeBody s).state.lock = s.lock ∨ UnlockAttempted (writeBody s).state := by
  unfold writeBody
  split
  · split
    · exact writeSteps_lock _ _ s hcmd
    · exact .inl rfl
  · exact .inl rfl

theorem writeBody_done_lock {s t : State} (h : writeBody s = .done () t) : t.lock = .locked := by
  unfold writeBody at h
  split at h
  · split at h
    · exact writeSteps_done_lock h
    · cases h
  · cases h

/-- A `WRITE` that comes to an end leaves `LOCK` as it was or locked (R28, R218). -/
theorem writeBody_settle_lock (s : State) (hcmd : s.cmd = 0x03) (hb : (writeBody s).settle.busy = false)
    (hbusy : (writeBody s).state.busy = true) :
    (writeBody s).settle.lock = s.lock ∨ (writeBody s).settle.lock = .locked := by
  rcases (writeBody s).settle_cases with ⟨_, h⟩ | ⟨t, hr, h⟩ | ⟨k, t, hr, h⟩ | ⟨t, hr, h⟩ | ⟨t, _, h⟩
  · rw [h]; exact .inr rfl
  · rw [h]; exact .inr (show t.lock = .locked from writeBody_done_lock hr)
  · have hlock := writeBody_lock s hcmd
    rw [hr, Res.state_raised] at hlock
    rw [h]
    exact hlock.elim (fun hl => t.abort_lock k |>.imp (·.trans hl) id)
      fun hu => .inr (t.abort_lock_of_unlockAttempted hu k)
  · rw [hr] at hb hbusy
    exact absurd (hb.symm.trans hbusy) (by decide)
  · rw [h]; exact .inr rfl

/-- An instruction that leaves `BUSY` 0 leaves `LOCK` as it was or locked (R28). -/
theorem exec_lock {i : Instr} {s t : State} (h : exec i s = .next t) (hb : t.busy = false) :
    t.lock = s.lock ∨ t.lock = .locked := by
  cases exec_runs h with
  | command m r _ _ hr =>
    have hm : m.lock = s.lock := by rw [hr.accepted]
    have hbusy : m.busy = true := by rw [hr.accepted]
    rw [hr.ends] at hb ⊢
    cases hw : writeForm i with
    | true =>
      have hbody := hr.body hw
      subst hbody
      rw [← hm]
      exact writeBody_settle_lock m (hr.code.mpr hw) hb ((Course.kept hr.along).busy.trans hbusy)
    | false =>
      have hlock : r.state.lock = s.lock := (Course.lock_step hr.along hw).1.trans hm
      rcases r.settle_ends with ⟨_, h⟩ | ⟨_, l, _, hl, h⟩ | ⟨_, h⟩ | ⟨_, h⟩ <;> rw [h]
      · exact .inr rfl
      · exact hl.imp (·.trans hlock) (·.2)
      · exact .inl hlock
      · exact .inr rfl
  | micro r _ _ hr =>
    have hlock : r.state.lock = s.lock := (Course.lock_step hr.along hr.notWrite).1
    rw [hr.ends]
    rcases r.settleMicro_ends with ⟨_, h⟩ | ⟨_, _, h⟩ | ⟨_, h⟩ | ⟨_, h⟩ <;> rw [h]
    · exact .inr rfl
    · exact .inl hlock
    · exact .inl hlock
    · exact .inr rfl

end Sys2Proof.Machine
end

section
/-! SUPPORT. The invariant through a run and through what a step does besides: the operands of a decoded frame, and a
frame that is rejected (spec 10_state.md R23 to R29; 30_encoding.md R99, R100, R105). -/

namespace Sys2Proof.Machine

/-! ### The invariant -/

theorem Inside.inv_powerCycle {s : State} (h : Inside s) : Inv s.powerCycle :=
  { h with
    pair := .inl ⟨rfl, rfl⟩
    stepIdle := fun _ => rfl
    locked := fun _ => rfl
    flashIdle := (nomatch ·)
    addrFits := Nat.two_pow_pos _
    lenFits := Nat.two_pow_pos _ }

theorem Inside.inv_takeReset {s : State} (h : Inside s) : Inv s.takeReset :=
  Inside.inv_powerCycle (s := s.setInputs s.inputs.tail) { h with }

theorem Inv.fbusy_of_idle {s : State} (h : Inv s) (hb : s.busy = false) : s.fbusy = false := by
  cases hf : s.fbusy with
  | false => rfl
  | true => exact absurd (h.flashIdle hf) (by simp [hb])

/-- A host command keeps the invariant. -/
theorem CommandRun.inv {i : Instr} {s m t : State} {r : Res Unit} (hr : CommandRun i s m r t) (hs : Inv s)
    (hb : s.busy = false) (hexec : exec i s = .next t)
    (hops : (latchedOperands s i).1 < 2 ^ s.cfg.addrWidth ∧ (latchedOperands s i).2 < 2 ^ s.cfg.addrWidth) : Inv t := by
  have hm : Inside m := by
    rw [hr.accepted]
    exact { hs with addrFits := hops.1, lenFits := hops.2 }
  have hbusy : m.busy = true := by rw [hr.accepted]
  have hfbusy : m.fbusy = false := by rw [hr.accepted]; exact hs.fbusy_of_idle hb
  have hend : Inside r.state := Course.inside hr.along hm hm
  have hlock (h : t.busy = false) : t.lock = .locked := (exec_lock hexec h).elim (·.trans (hs.locked hb)) id
  rcases r.settle_ends with ⟨_, h⟩ | ⟨he, l, k, _, h⟩ | ⟨_, h⟩ | ⟨_, h⟩ <;> rw [← hr.ends] at h
  · rw [h]; exact hend.inv_takeReset
  · have hf : r.state.fbusy = false := (Course.fbusy hr.along (by simp [he])).trans hfbusy
    have hl : l = .locked := by simpa [h] using hlock (by rw [h])
    rw [h]
    exact { hend with
      stepIdle := fun _ => rfl
      locked := fun _ => hl
      flashIdle := fun hf' => by simp [hf] at hf' }
  · have hbt : t.busy = true := by rw [h]; exact (Course.kept hr.along).busy.trans hbusy
    rw [← h] at hend
    exact { hend with
      stepIdle := fun h' => by simp [hbt] at h'
      locked := hlock
      flashIdle := fun _ => hbt }
  · rw [h]; exact hend.inv_powerCycle

/-- A micro-operation presented alone keeps the invariant: it moves neither `LOCK` nor `STEP`. -/
theorem MicroRun.inv {i : Instr} {s t : State} {r : Res MicroResult} (hr : MicroRun i s r t) (hs : Inv s)
    (hb : s.busy = false) : Inv t := by
  have hend : Inside r.state := Course.inside hr.along hs.inside hs.inside
  obtain ⟨hlock, hstep⟩ := Course.lock_step hr.along hr.notWrite
  rw [hr.ends]
  rcases r.settleMicro_ends with ⟨_, h⟩ | ⟨he, a, h⟩ | ⟨_, h⟩ | ⟨_, h⟩ <;> rw [h]
  · exact hend.inv_takeReset
  · have hf : r.state.fbusy = false := (Course.fbusy hr.along (by simp [he])).trans (hs.fbusy_of_idle hb)
    exact { hend with
      stepIdle := fun _ => hstep.trans (hs.stepIdle hb)
      locked := fun _ => hlock.trans (hs.locked hb)
      flashIdle := fun hf' => by simp [hf] at hf' }
  · exact { hend with
      stepIdle := (nomatch ·)
      locked := (nomatch ·)
      flashIdle := fun _ => rfl }
  · exact hend.inv_powerCycle

theorem exec_inv {i : Instr} {s t : State} (hs : Inv s) (h : exec i s = .next t)
    (hops : (latchedOperands s i).1 < 2 ^ s.cfg.addrWidth ∧ (latchedOperands s i).2 < 2 ^ s.cfg.addrWidth) : Inv t := by
  cases exec_runs h with
  | command m r hb _ hr => exact hr.inv hs hb h hops
  | micro r hb _ hr => exact hr.inv hs hb

/-! ### The operands of a decoded frame -/

theorem decodePageOp_eq_ok {word : BitVec 72} {op : Designator → Instr} {i : Instr}
    (h : decodePageOp word op = .ok i) : ∃ page, i = op page := by
  unfold decodePageOp at h
  split at h
  · exact ⟨_, (Except.ok.inj h).symm⟩
  · cases h

/-- A ubus frame is a micro-operation, which latches no operands (R102). -/
theorem latchedOperands_of_decodeUbus (s : State) {word : BitVec 72} {i : Instr} (h : decodeUbus word = .ok i) :
    latchedOperands s i = (s.addr, s.len) := by
  have pageOp {op : Designator → Instr} (hop : ∀ page, latchedOperands s (op page) = (s.addr, s.len))
      (h : decodePageOp word op = .ok i) : latchedOperands s i = (s.addr, s.len) := by
    obtain ⟨page, rfl⟩ := decodePageOp_eq_ok h
    exact hop page
  unfold decodeUbus at h
  dsimp only at h
  split at h
  · cases h; rfl
  split at h
  · exact pageOp (fun _ => rfl) h
  split at h
  · unfold decodeSetState at h
    split at h
    · exact pageOp (fun _ => rfl) h
    · cases h
  split at h
  · exact pageOp (fun _ => rfl) h
  split at h
  · exact pageOp (fun _ => rfl) h
  split at h
  · exact pageOp (fun _ => rfl) h
  · cases h

/-- The operands of a decoded host frame are the latched ones (R99, R100). -/
theorem latchedOperands_of_decodeHost (s : State) {word : Nat} {data : List Byte} {i : Instr}
    (h : decodeHost s.cfg.addrWidth word data = .ok i) :
    latchedOperands (s.latchFrame (.host word data)) i =
      (frameAddr s.cfg.addrWidth word, frameLen s.cfg.addrWidth word) := by
  unfold decodeHost at h
  dsimp only at h
  split at h
  · cases h; rfl
  split at h
  · cases h; rfl
  split at h
  · cases h; rfl
  split at h
  · cases h; rfl
  · cases h

/-- Latching a frame keeps the invariant: its operands are cut to `AW` bits (R24, R99). -/
theorem Inv.latchFrame {s : State} (h : Inv s) (f : Frame) : Inv (s.latchFrame f) := by
  cases f with
  | host word data =>
    exact { h with
      addrFits := Nat.mod_lt _ (Nat.two_pow_pos _)
      lenFits := Nat.mod_lt _ (Nat.two_pow_pos _) }
  | ubus word => exact h

theorem latchedOperands_of_decodeFrame (s : State) {f : Frame} {i : Instr}
    (h : decodeFrame s.cfg.addrWidth f = .ok i) :
    latchedOperands (s.latchFrame f) i = ((s.latchFrame f).addr, (s.latchFrame f).len) := by
  cases f with
  | host word data => exact latchedOperands_of_decodeHost s h
  | ubus word => exact latchedOperands_of_decodeUbus s h

/-- A frame that is rejected and goes on is an illegal host command (R105). -/
theorem rejectFrame_eq_next {e : DecodeError} {s t : State} (h : rejectFrame e s = .next t) :
    s.busy = false ∧ t = s.endIn s.illegalCommand := by
  unfold rejectFrame at h
  cases hr : s.refusal with
  | some r => simp [hr] at h
  | none =>
    obtain ⟨hb, _⟩ := (State.refusal_eq_none s).mp hr
    cases e <;> simp only [hr, Host.Outcome.next.injEq, reduceCtorEq] at h
    exact ⟨hb, h.symm⟩

theorem rejectFrame_illegalCommand {s : State} (cmd : Byte) (hb : s.busy = false) (hc : legalConfig s.cfg = true) :
    rejectFrame (.illegalCommand cmd) s = .next (s.endIn s.illegalCommand) := by
  rw [rejectFrame, (State.refusal_eq_none s).mpr ⟨hb, hc⟩]

/-- A `CMD` that is no host command does not decode (R105). -/
theorem decodeFrame_illegal {aw word : Nat} {data : List Byte} (h1 : frameCmd word ≠ 0x01)
    (h2 : frameCmd word ≠ 0x02) (h3 : frameCmd word ≠ 0x03) (h4 : frameCmd word ≠ 0x04) :
    decodeFrame aw (.host word data) = .error (.illegalCommand (frameCmd word)) := by
  rw [decodeFrame, decodeHost, if_neg h1, if_neg h2, if_neg h3, if_neg h4]

theorem rejectFrame_inv {e : DecodeError} {s t : State} (hs : Inv s) (h : rejectFrame e s = .next t) : Inv t := by
  obtain ⟨hb, ht⟩ := rejectFrame_eq_next h
  rcases s.endIn_cases s.illegalCommand with ⟨_, he⟩ | he <;> rw [ht, he]
  · exact hs.inside.inv_takeReset
  · exact { hs with
      stepIdle := fun _ => hs.stepIdle hb
      locked := fun _ => hs.locked hb
      flashIdle := fun hf => absurd (hs.flashIdle hf) (by simp [hb]) }

end Sys2Proof.Machine
end

section
/-! SUPPORT. A run with a reset raised inside it, against the same run without one (spec 70_reset_and_hazards.md R240,
R244). -/

namespace Sys2Proof.Machine

/-- What becomes of a run that would leave `t` when a reset is raised inside it, `rest` being delivered after the
reset: it leaves `u`, with the flash and the draws of `t` (R240). -/
structure CutByReset (e : Ending) (rest : List Input) (t u : State) : Prop where
  flash : u.flash = t.flash
  cfg : u.cfg = t.cfg
  drawn : u.drawn = t.drawn
  hung : t.busy = true → u = { t with inputs := .resetInside :: rest }
  ended : t.busy = false →
    u.registersReset ∧ (u.inputs = rest ∨ (u.inputs = .resetInside :: rest ∧ e = .cut))

theorem CutByReset.of_returned {e : Ending} {rest : List Input} {s t : State} (hf : t.flash = s.flash)
    (hc : t.cfg = s.cfg) (hd : t.drawn = s.drawn) (hb : t.busy = false) :
    CutByReset e rest t (s.setInputs (.resetInside :: rest)).takeReset :=
  ⟨hf.symm, hc.symm, hd.symm, fun h => by simp [hb] at h, fun _ => ⟨State.registersReset_takeReset _, .inl rfl⟩⟩

theorem CutByReset.of_hung {e : Ending} {rest : List Input} {t : State} (hb : t.busy = true) :
    CutByReset e rest t (t.setInputs (.resetInside :: rest)) :=
  ⟨rfl, rfl, rfl, fun _ => rfl, fun h => by simp [hb] at h⟩

theorem CutByReset.of_powerLost {rest : List Input} (s : State) :
    CutByReset .cut rest s.powerCycle (s.setInputs (.resetInside :: rest)).powerCycle :=
  ⟨rfl, rfl, rfl, (nomatch ·), fun _ => ⟨State.registersReset_powerCycle _, .inr ⟨rfl, rfl⟩⟩⟩

theorem State.resetInside_of_nil {s : State} (h : s.inputs = []) : s.resetInside = false := by
  simp [State.resetInside, h]

theorem Res.settle_cutByReset (r : Res Unit) (rest : List Input) (hi : r.state.inputs = [])
    (hb : r.state.busy = true) : CutByReset r.ending rest r.settle (r.withInputs (.resetInside :: rest)).settle := by
  cases r with
  | done u s =>
    rw [Res.settle_done, State.endIn_of_none s _ (State.resetInside_of_nil hi)]
    exact .of_returned rfl rfl rfl rfl
  | raised k s =>
    rw [Res.settle_raised, State.endIn_of_none s _ (State.resetInside_of_nil hi), State.abort_eq]
    exact .of_returned rfl rfl rfl rfl
  | hung s => exact .of_hung hb
  | powerLost s => exact .of_powerLost s

theorem Res.settleMicro_cutByReset (r : Res MicroResult) (rest : List Input) (hi : r.state.inputs = [])
    (hb : r.state.busy = false) :
    CutByReset r.ending rest r.settleMicro (r.withInputs (.resetInside :: rest)).settleMicro := by
  cases r with
  | done a s =>
    rw [Res.settleMicro, State.endIn_of_none s _ (State.resetInside_of_nil hi)]
    exact .of_returned rfl rfl rfl hb
  | raised k s =>
    rw [Res.settleMicro, State.endIn_of_none s _ (State.resetInside_of_nil hi)]
    exact .of_returned rfl rfl rfl hb
  | hung s => exact .of_hung (t := s.setBusy true) rfl
  | powerLost s => exact .of_powerLost s

/-- An instruction with a reset raised inside it, against the same one with nothing delivered. -/
theorem exec_cutByReset {i : Instr} {s t : State} (rest : List Input) (hs : s.inputs = [])
    (h : exec i s = .next t) :
    ∃ e u, exec i (s.setInputs (.resetInside :: rest)) = .next u ∧ CutByReset e rest t u ∧
      (e = .cut → ∃ k, t.drawn = s.drawn + k + 1 ∧ s.cutAt k) := by
  cases exec_runs h with
  | command m r _ _ hr =>
    have hm : m.inputs = [] := by rw [hr.accepted]; exact hs
    have hbusy : m.busy = true := by rw [hr.accepted]
    have hcut (he : r.ending = .cut) : ∃ k, t.drawn = s.drawn + k + 1 ∧ s.cutAt k := by
      have hk := Course.cutAt hr.along he
      rw [hr.accepted] at hk
      rw [hr.ends, Res.settle_drawn]
      exact hk
    have hkept := Course.kept hr.along
    refine ⟨r.ending, _, hr.otherInputs _, ?_, hcut⟩
    rw [hr.ends]
    exact r.settle_cutByReset rest (hkept.inputs.trans hm) (hkept.busy.trans hbusy)
  | micro r hb _ hr =>
    have hkept := Course.kept hr.along
    refine ⟨r.ending, _, hr.otherInputs _, ?_, fun he => ?_⟩
    · rw [hr.ends]
      exact r.settleMicro_cutByReset rest (hkept.inputs.trans hs) (hkept.busy.trans hb)
    · rw [hr.ends, Res.settleMicro_drawn]
      exact Course.cutAt hr.along he

end Sys2Proof.Machine
end

section
/-! SUPPORT. `INIT`, `MASS_ERASE` and `SET_STATE` by what their calls do to flash: an erase that hangs, is cut or
returns, and programs that stay in one state word (spec 20_memory.md R33, R63; 70_reset_and_hazards.md R229, R242,
R243). -/

namespace Sys2Proof.Machine

/-! ### An erase that hangs, is cut, or returns -/

/-- `erase_page` that never returns (R63, R229): `FBUSY` stays 1, and no byte outside the page changes. -/
theorem erasePage_hangs (a : Nat) (s : State) (hk : (s.drawAt 0).kind = .noCompletion)
    (hw : s.cfg.waitBudget = .infinite) :
    ∃ t, erasePage a s = .hung t ∧ SameOutside (fun b => a ≤ b ∧ b < a + s.cfg.pageSize) s t ∧
      t = { s with flash := t.flash, fbusy := true, draws := s.draws.tail, drawn := s.drawn + 1 } := by
  have hout := erasePage_sameOutside a s
  have he : erasePage a s = .hung ((s.tearPage a).setFbusy true) := by
    rw [← State.nextDraw_eq_drawAt] at hk
    simp only [erasePage, hk]
    exact noCompletion_infinite _ hw
  rw [he] at hout
  exact ⟨_, he, hout, rfl⟩

/-- What power loss at `erase_page` leaves: one draw made, no byte outside the page changed, and none at all if the
erase had not begun (R242, R243). -/
theorem erasePage_isCut (a : Nat) (s : State) (h : s.cutAt 0) :
    ∃ t, erasePage a s = .powerLost t ∧ t.cfg = s.cfg ∧ t.drawn = s.drawn + 1 ∧
      SameOutside (fun b => a ≤ b ∧ b < a + s.cfg.pageSize) s t ∧
      ((s.drawAt 0).kind = .cutBefore → t.flash = s.flash) := by
  have hout := erasePage_sameOutside a s
  rw [← State.nextDraw_eq_drawAt]
  rcases State.cutAt_zero_iff.mp h with h | h
  · have he : erasePage a s = .powerLost s.popDraw := by simp only [erasePage, h]
    exact ⟨_, he, rfl, rfl, by rwa [he] at hout, fun _ => rfl⟩
  · have he : erasePage a s = .powerLost (s.tearPage a) := by simp only [erasePage, h]
    exact ⟨_, he, rfl, rfl, by rwa [he] at hout, fun h' => by simp [h] at h'⟩

/-- The first erase of `MASS_ERASE` where it returns: its result is captured, one draw is made, and on success the page
reads erased (R63, R162). -/
theorem captureErase_returns (a : Nat) (s : State) (hcut : ¬ s.cutAt 0)
    (hw : (s.drawAt 0).kind = .noCompletion → s.cfg.waitBudget = .finite) :
    ∃ o t, captureErase (erasePage a s) = .done o t ∧
      t = { s with flash := t.flash, draws := s.draws.tail, drawn := s.drawn + 1 } ∧
      SameOutside (fun b => a ≤ b ∧ b < a + s.cfg.pageSize) s t ∧
      ((s.drawAt 0).kind = .doneOk → ∀ o < s.cfg.pageSize, t.flash.read (a + o) = 0xFF) := by
  have hout := erasePage_sameOutside a s
  rw [State.cutAt_zero_iff] at hcut
  rw [← State.nextDraw_eq_drawAt] at hw ⊢
  rcases erasePage_cases a s with ⟨hk, he⟩ | ⟨hk, he⟩ | ⟨hk, he⟩ | ⟨hk, he⟩ | ⟨hk, he⟩
  · rw [he] at hout ⊢
    refine ⟨_, _, rfl, rfl, hout, fun _ o ho => ?_⟩
    simp [Memory.read_erase, ho, erasedByte]
  · rw [he] at hout ⊢
    exact ⟨_, _, rfl, rfl, hout, fun h => by simp [hk] at h⟩
  · rw [noCompletion_finite (s.tearPage a) (hw hk)] at he
    rw [he] at hout ⊢
    exact ⟨_, _, rfl, rfl, hout, fun h => by simp [hk] at h⟩
  · exact absurd (.inl hk) hcut
  · exact absurd (.inr hk) hcut

theorem exec_init_of_ready {s : State} (h : s.ready) : exec .init s = .next (initBody (s.accept 0x01)).settle :=
  (hostCommand_eq_next 0x01 id initBody s _).mpr ⟨h.2.1, h.1, rfl⟩

theorem exec_massErase_of_ready {s : State} (h : s.ready) :
    exec .massErase s = .next (massEraseBody (s.accept 0x04)).settle :=
  (hostCommand_eq_next 0x04 id massEraseBody s _).mpr ⟨h.2.1, h.1, rfl⟩

@[simp] theorem State.pageState_accept (s : State) (c : Byte) (p : Page) :
    (s.accept c).pageState p = s.pageState p := rfl

/-- A state word is read from flash alone (R124). -/
theorem State.stateWord_congr {s t : State} (p : Page) (hc : t.cfg = s.cfg) (hf : t.flash = s.flash) :
    t.stateWord p = s.stateWord p := by
  simp only [State.stateWord, State.readU16_eq, hc, hf]

theorem State.setSreg_setSreg (s : State) (v w : StateWord) : (s.setSreg v).setSreg w = { s with sreg := w } := rfl

/-- Both pages' state words are read, the second one stays in `SREG` (R124, log entry 22). -/
theorem State.loadSreg_loadSreg (s : State) (p q : Page) :
    (s.loadSreg p).loadSreg q = { s with sreg := s.stateWord q } := by
  have h : (s.loadSreg p).stateWord q = s.stateWord q :=
    State.stateWord_congr q (s.setSreg_cfg _) (s.setSreg_flash _)
  rw [State.loadSreg, h, State.loadSreg, State.setSreg_setSreg]

theorem selectPage_eq_none {s1 s2 : PageState} (h1 : s1 ≠ .valid) (h2 : s2 ≠ .valid) (h3 : s1 ≠ .copy)
    (h4 : s2 ≠ .copy) : selectPage s1 s2 = none := by
  simp [selectPage, h1, h2, h3, h4]

/-- `MASS_ERASE` whose first erase returns: what is left to do is the second, whatever the first one's result `o`
(R162). -/
theorem massEraseBody_of_first_returns (s : State) (hcut : ¬ s.cutAt 0)
    (hw : (s.drawAt 0).kind = .noCompletion → s.cfg.waitBudget = .finite) :
    ∃ o t, massEraseBody s = (captureErase (erasePage (base s.cfg .p2) t)).andThen (raiseFirst o) ∧
      t = { s with flash := t.flash, draws := s.draws.tail, drawn := s.drawn + 1 } ∧
      t.drawAt 0 = s.drawAt 1 ∧ SameOutside (inPage s.cfg .p1) s t ∧
      ((s.drawAt 0).kind = .doneOk → ∀ o < s.cfg.pageSize, t.flash.read (base s.cfg .p1 + o) = 0xFF) := by
  obtain ⟨o, t, he, ht, hout, herased⟩ := captureErase_returns (base s.cfg .p1) s hcut hw
  have hcfg : t.cfg = s.cfg := by rw [ht]
  refine ⟨o, t, ?_, ht, ?_, hout, herased⟩
  · rw [massEraseBody, he, Res.andThen_done, hcfg]
  · exact State.drawAt_of_drawn 1 0 (by rw [ht]) (by rw [ht]; exact List.drop_one.symm)

/-- An erase of page 2 after one of page 1: no byte outside the two pages changes, and page 1 stays as the first left it
(R63). -/
theorem sameOutside_both_pages {c : Config} {s t u : State} (hc : legalConfig c = true)
    (h1 : SameOutside (inPage c .p1) s t) (h2 : SameOutside (inPage c .p2) t u) :
    (∀ b, ¬ inPage c .p1 b → ¬ inPage c .p2 b → u.flash.read b = s.flash.read b) ∧
    ∀ o < c.pageSize, u.flash.read (base c .p1 + o) = t.flash.read (base c .p1 + o) :=
  ⟨fun b hb hb' => (h2 b hb').trans (h1 b hb), fun _ ho => h2 _ fun hin =>
    not_inPage_both c hc .p1 _ ⟨Nat.le_add_right _ _, Nat.add_lt_add_left ho _⟩ hin⟩

/-! ### SET_STATE and its state word -/

/-- No byte outside the state word of page `p` changes, and bits are only cleared (R33, R120). -/
structure ClearsStateWord (p : Page) (s t : State) : Prop where
  cfg : t.cfg = s.cfg
  outside : SameOutside (inStateWord s.cfg p) s t
  clears : ∀ b, t.flash.read b &&& s.flash.read b = t.flash.read b

theorem ClearsStateWord.refl (p : Page) (s : State) : ClearsStateWord p s s :=
  ⟨rfl, SameOutside.refl _ s, fun _ => BitVec.and_self⟩

theorem ClearsStateWord.trans (p : Page) (s t u : State) (h : ClearsStateWord p s t) (h' : ClearsStateWord p t u) :
    ClearsStateWord p s u := by
  refine ⟨h'.cfg.trans h.cfg, SameOutside.trans _ s t u h.outside (h.cfg ▸ h'.outside), fun b => ?_⟩
  rw [← h'.clears b, BitVec.and_assoc, h.clears b]

theorem setField_clearsStateWord (p : Page) (target : PageState) (k : Nat) (hk : k < 4) (s : State) :
    ClearsStateWord p s (setField p target k s).state := by
  unfold setField
  split
  · split <;> exact .refl p s
  split
  · rw [Res.state_orProgramError]
    refine ⟨(writeU16_flashOnly _ _ _).cfg, fun b hb => writeU16_sameOutside _ _ s b fun hin => hb ?_,
      writeU16_clears _ _ s⟩
    simp only [inStateWord, fieldAddr] at hin ⊢
    omega
  · exact .refl p s

theorem setPageState_clearsStateWord (p : Page) (target : PageState) (s : State) :
    ClearsStateWord p s (setPageState p target s).state :=
  Res.rel_forEach (ClearsStateWord.refl p) (ClearsStateWord.trans p)
    (fun k hk s => setField_clearsStateWord p target k (by simp at hk; omega) s) s

theorem exec_setState_of_ready {s : State} (h : s.ready) (p : Page) {target : PageState} (ht : target ≠ .corrupt) :
    exec (.setState (designatorOf p) target) s =
      .next ((setPageState p target s).andThen fun _ t => Res.done MicroResult.ok t).settleMicro := by
  have hok : targetOperandOk target = true := by cases target <;> simp_all [targetOperandOk]
  rw [exec_setState _ hok, onPage_designatorOf, microOperation_eq_next]
  exact ⟨h.2.1, h.1, rfl⟩

/-- What follows a part that only passes its state on. -/
theorem Res.state_andThen_done {α β : Type} (r : Res α) (b : β) : (r.andThen fun _ t => .done b t).state = r.state := by
  cases r <;> rfl

end Sys2Proof.Machine
end

section
/-! The statements of spec 10_state.md: what reset leaves, what every step keeps, and who moves what. -/

namespace Sys2Proof.Proofs

open Sys2Proof Sys2Proof.Machine

/-- Settles O56: a step waits, takes a reset, runs an instruction, whose course keeps the clauses that hold inside a
command, or rejects an illegal command. -/
theorem stepKeepsInvariant : Obligations.StepKeepsInvariant := by
  intro s t hs h
  obtain ⟨_, ⟨_, rfl⟩ | ⟨_, rfl⟩ | ⟨f, rest, i, _, hi, h⟩ | ⟨f, rest, e, _, _, h⟩⟩ := step_eq_next s t h
  · exact hs
  · exact hs.inside.inv_takeReset
  · have hpopped : Inv (s.setInputs rest) := { hs with }
    have hlatched := hpopped.latchFrame f
    refine exec_inv hlatched h ?_
    rw [latchedOperands_of_decodeFrame (s.setInputs rest) hi]
    exact ⟨hlatched.addrFits, hlatched.lenFits⟩
  · exact rejectFrame_inv (s := s.setInputs rest) { hs with } h

/-- Settles O16: each field's turn touches its own field and programs only erased halfwords. -/
theorem setStateOnlyClearsItsOwnFields : Obligations.SetStateOnlyClearsItsOwnFields := by
  intro s p target hs ht
  have h := setPageState_clearsStateWord p target s
  refine ⟨_, exec_setState_of_ready hs p ht, ?_, ?_⟩ <;> rw [Res.settleMicro_flash, Res.state_andThen_done]
  · exact h.outside
  · exact h.clears

/-- Settles O27: on the fresh path the erase of page 1 is the only call, and `INIT` ends as it does. -/
theorem initFreshEraseHangsOrIsCut : Obligations.InitFreshEraseHangsOrIsCut := by
  intro s hs h1 h2 h3 h4
  have hselect : selectPage ((s.accept 0x01).pageState .p1) ((s.accept 0x01).pageState .p2) = none := by
    rw [State.pageState_accept, State.pageState_accept]
    exact selectPage_eq_none h1 h2 h3 h4
  rw [exec_init_of_ready hs, initBody_of_none _ hselect, freshStore]
  have hword : (s.accept 0x01).stateWord .p2 = s.stateWord .p2 := State.stateWord_congr .p2 rfl rfl
  rw [State.loadSreg_loadSreg, hword]
  refine ⟨fun hk hw => ?_, fun hcut => ?_⟩
  · obtain ⟨t, he, hout, ht⟩ :=
      erasePage_hangs (base s.cfg .p1) { s.accept 0x01 with sreg := s.stateWord .p2 } hk hw
    refine ⟨t, ?_, hout, ?_⟩
    · exact congrArg (fun r => Host.Outcome.next (Res.settle (Res.andThen (Res.orProgramError r) _))) he
    · rw [ht]; rfl
  · obtain ⟨t, he, _, hd, hout, hf⟩ :=
      erasePage_isCut (base s.cfg .p1) { s.accept 0x01 with sreg := s.stateWord .p2 } hcut
    refine ⟨t.powerCycle, ?_, t.registersReset_powerCycle, hd, hout, hf⟩
    exact congrArg (fun r => Host.Outcome.next (Res.settle (Res.andThen (Res.orProgramError r) _))) he

/-- Settles O34: each of the two erases in turn is the one that hangs or is cut. -/
theorem massEraseHangsOrIsCut : Obligations.MassEraseHangsOrIsCut := by
  intro s hs
  rw [exec_massErase_of_ready hs]
  refine ⟨fun hk hw => ?_, fun hk0 hk1 hw => ?_, fun hcut => ?_, fun hcut0 hw hcut1 => ?_⟩
  · obtain ⟨t, he, hout, ht⟩ := erasePage_hangs (base s.cfg .p1) (s.accept 0x04) hk hw
    refine ⟨t, by rw [massEraseBody, State.accept_cfg, he]; rfl, hout, ?_⟩
    rw [ht]
    rfl
  · have hcut0 : ¬ (s.accept 0x04).cutAt 0 := fun h : s.cutAt 0 => by
      rcases hk0 with h0 | h0 <;> simp [State.cutAt, h0] at h
    have hw0 : ((s.accept 0x04).drawAt 0).kind = .noCompletion → (s.accept 0x04).cfg.waitBudget = .finite :=
      fun h : (s.drawAt 0).kind = .noCompletion => by rcases hk0 with h0 | h0 <;> simp [h0] at h
    obtain ⟨o, t, hbody, ht, hdraw, hout1, herased⟩ := massEraseBody_of_first_returns (s.accept 0x04) hcut0 hw0
    have hcfg : t.cfg = s.cfg := by rw [ht]; rfl
    obtain ⟨u, he, hout2, hu⟩ :=
      erasePage_hangs (base s.cfg .p2) t (by rw [hdraw]; exact hk1) (by rw [hcfg]; exact hw)
    rw [hcfg] at hout2
    obtain ⟨hout, hkept⟩ := sameOutside_both_pages hs.1 hout1 hout2
    have hucfg : u.cfg = s.cfg := by rw [hu, hcfg]
    refine ⟨u, by rw [hbody, State.accept_cfg, he]; rfl, fun h o ho => ?_, hout, ?_⟩
    · rw [State.pageByte, hucfg]
      exact (hkept o ho).trans (herased h o ho)
    have hdrop : s.draws.drop 2 = s.draws.tail.tail := by rw [← List.drop_one, ← List.drop_one, List.drop_drop]
    rw [hu, ht, hdrop]
    rfl
  · obtain ⟨t, he, _, hd, hout, hf⟩ := erasePage_isCut (base s.cfg .p1) (s.accept 0x04) hcut
    exact ⟨t.powerCycle, by rw [massEraseBody, State.accept_cfg, he]; rfl, t.registersReset_powerCycle, hd, hout, hf⟩
  · obtain ⟨o, t, hbody, ht, hdraw, hout1, herased⟩ := massEraseBody_of_first_returns (s.accept 0x04) hcut0 hw
    have hcfg : t.cfg = s.cfg := by rw [ht]; rfl
    have hdrawn : t.drawn = s.drawn + 1 := by rw [ht]; rfl
    obtain ⟨u, he, hucfg, hd, hout2, hf⟩ := erasePage_isCut (base s.cfg .p2) t (by rw [State.cutAt, hdraw]; exact hcut1)
    rw [hcfg] at hout2
    obtain ⟨hout, hkept⟩ := sameOutside_both_pages hs.1 hout1 hout2
    refine ⟨u.powerCycle, by rw [hbody, State.accept_cfg, he]; rfl, u.registersReset_powerCycle,
      hd.trans (by rw [hdrawn]), fun h o ho => ?_, hout, fun h b hb => ?_⟩
    · rw [State.pageByte, State.powerCycle_cfg, hucfg, hcfg]
      exact (hkept o ho).trans (herased h o ho)
    exact (congrArg (Memory.read · b) (hf (by rw [hdraw]; exact h))).trans (hout1 b hb)

/-- Settles O44: an instruction that comes to an end leaves `LOCK` as it was or locked. -/
theorem writeExitsLocked : Obligations.WriteExitsLocked := by
  intro s t i _ hs h hb
  exact (exec_lock h hb).elim (·.trans hs) id

/-- Settles O54: no part of an instruction looks at the inputs, so that the run is the same up to its end. -/
theorem resetInsideACommandKeepsOnlyFlash : Obligations.ResetInsideACommandKeepsOnlyFlash := by
  intro s t i rest h
  obtain ⟨e, u, hu, hcut, hdraw⟩ := exec_cutByReset (s := s.setInputs []) rest rfl h
  refine ⟨u, hu, hcut.flash, hcut.cfg, hcut.drawn, hcut.hung, fun hb => ?_⟩
  obtain ⟨hreset, hin⟩ := hcut.ended hb
  exact ⟨hreset, hin.imp id fun ⟨hu, he⟩ => ⟨hu, hdraw he⟩⟩

/-- Settles O58: of the moves an instruction can make, those of the lock and of the designators are a `WRITE`'s and
`INIT`'s. -/
theorem onlyInitAndWriteMoveTheStore : Obligations.OnlyInitAndWriteMoveTheStore := by
  intro s t i h hi
  cases exec_runs h with
  | command m r _ _ hr =>
    have hlock := (Course.lock_step hr.along hi).1
    have hdes := Course.designators hr.along hi
    have hkept := Course.kept hr.along
    have hcut := Course.cutAt hr.along
    have hcmd : r.state.cmd ≠ 0x03 := by rw [hkept.cmd, Ne, hr.code, hi]; decide
    have hreset := State.resetInside_congr hkept.inputs
    rw [hr.accepted] at hlock hdes hcut hreset
    rw [hr.ends]
    rcases r.settle_ends with ⟨hin, h⟩ | ⟨_, l, _, hl, h⟩ | ⟨_, h⟩ | ⟨he, h⟩ <;> rw [h]
    · exact .inr (.inr ⟨hreset.symm.trans hin, State.registersReset_takeReset _⟩)
    · exact .inl ⟨(hl.resolve_right fun hc => hcmd hc.1).trans hlock, hdes⟩
    · exact .inl ⟨hlock, hdes⟩
    · obtain ⟨k, hk, hc⟩ := hcut he
      exact .inr (.inl ⟨k, hk, hc, State.registersReset_powerCycle _⟩)
  | micro r _ _ hr =>
    have hlock := (Course.lock_step hr.along hi).1
    have hdes := Course.designators hr.along hi
    have hreset := State.resetInside_congr (Course.kept hr.along).inputs
    rw [hr.ends]
    rcases r.settleMicro_ends with ⟨hin, h⟩ | ⟨_, _, h⟩ | ⟨_, h⟩ | ⟨he, h⟩ <;> rw [h]
    · exact .inr (.inr ⟨hreset.symm.trans hin, State.registersReset_takeReset _⟩)
    · exact .inl ⟨hlock, hdes⟩
    · exact .inl ⟨hlock, hdes⟩
    · obtain ⟨k, hk, hc⟩ := Course.cutAt hr.along he
      exact .inr (.inl ⟨k, hk, hc, State.registersReset_powerCycle _⟩)

/-- Settles O59: under a finite budget no course hangs, and every other end leaves the block idle. -/
theorem finiteBudgetAlwaysCompletes : Obligations.FiniteBudgetAlwaysCompletes := by
  intro s t i hf h
  cases exec_runs h with
  | command m r _ _ hr =>
    have hm : m.cfg.waitBudget = .finite := by rw [hr.accepted]; exact hf
    rw [hr.ends]
    rcases r.settle_ends with ⟨_, h⟩ | ⟨_, _, _, _, h⟩ | ⟨he, _⟩ | ⟨_, h⟩
    · rw [h]; exact ⟨rfl, fun _ => rfl⟩
    · rw [h]; exact ⟨rfl, fun _ => rfl⟩
    · exact absurd he (Course.not_hung hr.along hm)
    · rw [h]; exact ⟨rfl, fun _ => rfl⟩
  | micro r hb _ hr =>
    have hstep := (Course.lock_step hr.along hr.notWrite).2
    have hbusy := (Course.kept hr.along).busy.trans hb
    rw [hr.ends]
    rcases r.settleMicro_ends with ⟨_, h⟩ | ⟨_, _, h⟩ | ⟨he, _⟩ | ⟨_, h⟩
    · rw [h]; exact ⟨rfl, fun _ => rfl⟩
    · rw [h]; exact ⟨hbusy, hstep.trans⟩
    · exact absurd he (Course.not_hung hr.along hf)
    · rw [h]; exact ⟨rfl, fun _ => rfl⟩

/-- Settles O7: the step of an empty queue. -/
theorem waitsWhenNothingIsDelivered : Obligations.WaitsWhenNothingIsDelivered := by
  intro s hc hin
  rw [step, whenLegal_of_legal s _ hc, hin]

/-- Settles O53: the step takes the reset, or the illegal command ends in it. -/
theorem resetClearsRegistersKeepsFlash : Obligations.ResetClearsRegistersKeepsFlash := by
  intro s rest hc h
  rw [step, whenLegal_of_legal s _ hc]
  rcases h with h | h | ⟨hb, word, data, h, h1, h2, h3, h4⟩
  · rw [h]
    exact ⟨_, rfl, State.registersReset_takeReset s, rfl, rfl, congrArg List.tail h, rfl⟩
  · rw [h]
    exact ⟨_, rfl, State.registersReset_takeReset s, rfl, rfl, congrArg List.tail h, rfl⟩
  · rw [h]
    dsimp only
    rw [decodeFrame_illegal h1 h2 h3 h4]
    refine ⟨_, rejectFrame_illegalCommand (s := s.setInputs (.resetInside :: rest)) _ hb hc, ?_⟩
    rw [State.endIn_of_reset _ _ rfl]
    exact ⟨State.registersReset_takeReset _, rfl, rfl, rfl, rfl⟩

/-- Settles O55, by the fields of the state after reset. -/
theorem resetStateIsIdleAndLocked : Obligations.ResetStateIsIdleAndLocked :=
  ⟨rfl, rfl, rfl, rfl, rfl, rfl, rfl, by decide, rfl⟩

/-- Settles O57: the empty block, with no page designated and nothing in flash. -/
theorem resetStateMeetsInvariant : Obligations.ResetStateMeetsInvariant :=
  { pair := .inl ⟨rfl, rfl⟩
    stepIdle := fun _ => rfl
    locked := fun _ => rfl
    flashIdle := (nomatch ·)
    canonical := Memory.wf_reset
    inPages := fun _ hc => nomatch hc
    addrFits := Nat.two_pow_pos _
    lenFits := Nat.two_pow_pos _ }

end Sys2Proof.Proofs
end

section
/-! SUPPORT. The calls of the Flash Access Layer one outcome at a time, what a draw delivered next leaves behind, and the
bytes a page's state is decoded from (spec 20_memory.md R52, R55, R56, R61 to R64; 40_page_state_codec.md R125). -/

namespace Sys2Proof.Machine

/-! ### A call by its draw -/

/-- A call whose completion never comes, under either budget (R228, R229). -/
theorem noCompletion_by_budget {α : Type} {r : Res α} {t : State} (h : r = noCompletion t) :
    (t.cfg.waitBudget = .finite → r = .raised .timeout t) ∧
    (t.cfg.waitBudget = .infinite → r = .hung { t with fbusy := true }) :=
  ⟨fun hw => h.trans (noCompletion_finite t hw), fun hw => h.trans (noCompletion_infinite t hw)⟩

theorem writeU16_of_doneErr {a : Nat} (v : Half) {s : State} (hl : s.lock = .unlocked)
    (he : s.readU16 a = 0xFFFF) (hk : s.nextDraw.kind = .doneErr) :
    writeU16 a v s = .done false (s.popDraw.programHalf a (s.tornHalf v)) := by
  simp [writeU16, hl, he, hk]

theorem writeU16_of_noCompletion {a : Nat} (v : Half) {s : State} (hl : s.lock = .unlocked)
    (he : s.readU16 a = 0xFFFF) (hk : s.nextDraw.kind = .noCompletion) :
    writeU16 a v s = noCompletion (s.popDraw.programHalf a (s.tornHalf v)) := by
  simp [writeU16, hl, he, hk]

/-- The state an erase that succeeds leaves, as `State.tearPage` is the one a failed erase leaves (R63). -/
def State.clearPage (s : State) (a : Nat) : State := s.popDraw.setFlash (s.flash.erase a s.cfg.pageSize)

theorem erasePage_of_doneOk (a : Nat) {s : State} (hk : s.nextDraw.kind = .doneOk) :
    erasePage a s = .done true (s.clearPage a) := by
  simp [erasePage, hk, State.clearPage]

theorem erasePage_of_doneErr (a : Nat) {s : State} (hk : s.nextDraw.kind = .doneErr) :
    erasePage a s = .done false (s.tearPage a) := by
  simp [erasePage, hk]

theorem erasePage_of_noCompletion (a : Nat) {s : State} (hk : s.nextDraw.kind = .noCompletion) :
    erasePage a s = noCompletion (s.tearPage a) := by
  simp [erasePage, hk]

/-! ### The bytes a call may change -/

theorem State.read_programHalf_other (s : State) (a : Nat) (v : Half) {b : Nat} (h0 : b ≠ a) (h1 : b ≠ a + 1) :
    (s.programHalf a v).flash.read b = s.flash.read b := by
  rw [State.read_programHalf, if_neg h0, if_neg h1]

theorem State.read_clearPage_other (s : State) (p : Page) {b : Nat} (h : ¬ inPage s.cfg p b) :
    (s.clearPage (base s.cfg p)).flash.read b = s.flash.read b :=
  (Memory.read_erase _ _ _ b).trans (if_neg h)

theorem State.pageByte_clearPage (s : State) (p : Page) {o : Nat} (h : o < s.cfg.pageSize) :
    (s.clearPage (base s.cfg p)).pageByte p o = 0xFF :=
  (Memory.read_erase _ _ _ _).trans (if_pos ⟨Nat.le_add_right _ _, Nat.add_lt_add_left h _⟩)

theorem State.read_tearPage_other (s : State) (p : Page) {b : Nat} (h : ¬ inPage s.cfg p b) :
    (s.tearPage (base s.cfg p)).flash.read b = s.flash.read b := by
  rw [State.tearPage_flash, Memory.read_writeBytes, State.tornPage_length]
  exact if_neg h

/-! ### A draw delivered next, and what it leaves -/

/-- The draw `d` stands first among those the environment has settled (R17). -/
def State.withDraw (s : State) (d : Draw) : State := { s with draws := d :: s.draws }

@[simp] theorem State.withDraw_nextDraw (s : State) (d : Draw) : (s.withDraw d).nextDraw = d := rfl

@[simp] theorem State.withDraw_popDraw (s : State) (d : Draw) :
    (s.withDraw d).popDraw = { s with drawn := s.drawn + 1 } := rfl

/-- The bytes a draw names to leave the halfword `x`, most significant first. -/
def junkOfHalf (x : Half) : List Byte := [loAddrByte .be x, hiAddrByte .be x]

/-- The bytes a draw names to leave `contents` in a page of `n` bytes. -/
def junkOfPage (n : Nat) (contents : Nat → Byte) : List Byte := (List.range n).map contents

/-- Every element of `torn(v)` is left by the draw that names its two bytes (R62). -/
theorem State.withDraw_tornHalf (s : State) (k : DrawKind) {v x : Half} (h : x &&& v = v) :
    (s.withDraw ⟨k, junkOfHalf x⟩).tornHalf v = x :=
  calc composeHalf .be (loAddrByte .be x) (hiAddrByte .be x) ||| v
      = x ||| v := by rw [composeHalf_bytes]
    _ = x ||| (x &&& v) := by rw [h]
    _ = x := by ext i hi; simp only [BitVec.getElem_or, BitVec.getElem_and]; cases x[i] <;> rfl

/-- Any contents of a page are left by the draw that names each of its bytes (R64). -/
theorem State.withDraw_tornPage (s : State) (k : DrawKind) (contents : Nat → Byte) :
    (s.withDraw ⟨k, junkOfPage s.cfg.pageSize contents⟩).tornPage = junkOfPage s.cfg.pageSize contents := by
  refine List.map_congr_left fun i hi => ?_
  have hlt : i < s.cfg.pageSize := List.mem_range.mp hi
  simp [State.junkByte, junkOfPage, hlt]

/-- What such a draw leaves does not depend on its kind. -/
theorem State.withDraw_tearPage (s : State) (k : DrawKind) (a : Nat) (contents : Nat → Byte) :
    (s.withDraw ⟨k, junkOfPage s.cfg.pageSize contents⟩).tearPage a =
      { s with
        flash := s.flash.writeBytes a (junkOfPage s.cfg.pageSize contents)
        drawn := s.drawn + 1 } := by
  rw [State.tearPage, State.withDraw_tornPage]
  rfl

theorem Memory.read_writeBytes_junkOfPage (m : Memory) (a : Nat) {n o : Nat} (contents : Nat → Byte) (h : o < n) :
    (m.writeBytes a (junkOfPage n contents)).read (a + o) = contents o := by
  simp [Memory.read_writeBytes, junkOfPage, h]

/-! ### The bytes of a page's state word -/

/-- The byte that stands twice in field `k` of a canonical state: `targetField` is `0x0000` or `0xFFFF` (R92). -/
def targetByte (t : PageState) (k : Nat) : Byte := if k < stateNumber t then 0x00 else 0xFF

/-- A canonical field is made of two equal bytes, so its byte order does not matter (R125). -/
theorem composeHalf_targetByte (order : ByteOrder) (t : PageState) (k : Nat) :
    composeHalf order (targetByte t k) (targetByte t k) = targetField t k := by
  unfold targetByte targetField
  split
  · cases order <;> rfl
  · exact composeHalf_erased order

theorem composeHalf_inj {order : ByteOrder} {b0 b1 c0 c1 : Byte} :
    composeHalf order b0 b1 = composeHalf order c0 c1 ↔ b0 = c0 ∧ b1 = c1 := by
  constructor
  · intro h
    have hlo := congrArg (loAddrByte order) h
    have hhi := congrArg (hiAddrByte order) h
    simp only [loAddrByte_compose] at hlo
    simp only [hiAddrByte_compose] at hhi
    exact ⟨hlo, hhi⟩
  · rintro ⟨rfl, rfl⟩; rfl

theorem State.readU16_eq_targetField_iff (s : State) (a : Nat) (t : PageState) (k : Nat) :
    s.readU16 a = targetField t k ↔ s.flash.read a = targetByte t k ∧ s.flash.read (a + 1) = targetByte t k := by
  rw [s.readU16_eq, ← composeHalf_targetByte s.cfg.hwOrder, composeHalf_inj]

/-- Which canonical state a page decodes to is said by bytes alone, whatever `HW_ORDER` is (R55, R56, R125). -/
theorem State.pageState_eq_iff_bytes (s : State) (p : Page) {t : PageState} (ht : t ≠ .corrupt) :
    s.pageState p = t ↔ ∀ k < 4, s.flash.read (fieldAddr s.cfg p k) = targetByte t k ∧
      s.flash.read (fieldAddr s.cfg p k + 1) = targetByte t k := by
  simp only [s.pageState_eq_iff p t ht, State.readU16_eq_targetField_iff]
  constructor
  · rintro ⟨h0, h1, h2, h3⟩ k hk
    interval_cases k <;> assumption
  · intro h
    exact ⟨h 0 (by decide), h 1 (by decide), h 2 (by decide), h 3 (by decide)⟩

/-- Two page states that agree on every canonical one are equal: what is left is Corrupt (R94). -/
theorem PageState.eq_of_canonical_iff {x y : PageState} (h : ∀ t, t ≠ .corrupt → (x = t ↔ y = t)) : x = y := by
  by_cases hx : x = .corrupt
  · by_cases hy : y = .corrupt
    · rw [hx, hy]
    · exact (h y hy).mpr rfl
  · exact ((h x hx).mp rfl).symm

/-- A page whose every byte is `0xFF` decodes to ERASED (R63). -/
theorem State.pageState_of_erased {s : State} {p : Page} (hc : legalConfig s.cfg = true)
    (h : ∀ o < s.cfg.pageSize, s.pageByte p o = 0xFF) : s.pageState p = .erased := by
  have hsize := payloadSize_add s.cfg hc
  refine (s.pageState_eq_iff_bytes p (by decide)).mpr fun k hk => ?_
  have herased : targetByte .erased k = 0xFF := if_neg (Nat.not_lt_zero k)
  have hfield : fieldAddr s.cfg p k = base s.cfg p + (payloadSize s.cfg + 2 + 2 * k) := by
    simp only [fieldAddr]; omega
  rw [herased, hfield]
  exact ⟨h _ (by omega), h (payloadSize s.cfg + 2 + 2 * k + 1) (by omega)⟩

end Sys2Proof.Machine
end

section
/-! The statements of spec 20_memory.md about the calls of the Flash Access Layer, and the one of 40_page_state_codec.md
about the byte order of halfwords. -/

namespace Sys2Proof.Proofs

open Sys2Proof Sys2Proof.Machine

/-- Settles O8: refused calls change nothing; of the others the draw says whether the halfword holds the value or an
element of `torn`, and a draw that names the two bytes leaves any element. -/
theorem programHalfwordContract : Obligations.ProgramHalfwordContract := by
  intro s a v
  refine ⟨fun hrefused => ?_, fun hl he => ⟨?_, fun x hx => ?_⟩⟩
  · exact hrefused.elim (writeU16_locked a v s) (writeU16_notErased a v s)
  · rw [← State.nextDraw_eq_drawAt]
    by_cases hok : s.nextDraw.kind = .doneOk
    · refine ⟨s.popDraw.programHalf a v, fun _ => State.read_programHalf_other _ a v, rfl, fun _ => ?_,
        fun hk => ?_, fun hk => ?_⟩
      · exact ⟨writeU16_ok a v s hl he hok, State.readU16_programHalf_self _ a v⟩
      · simp [hok] at hk
      · simp [hok] at hk
    · have htorn : (s.popDraw.programHalf a (s.tornHalf v)).readU16 a &&& v = v := by
        rw [State.readU16_programHalf_self, State.tornHalf_mem]
      exact ⟨s.popDraw.programHalf a (s.tornHalf v), fun _ => State.read_programHalf_other _ a _, rfl,
        fun hk => absurd hk hok, fun hk => ⟨writeU16_of_doneErr v hl he hk, htorn⟩,
        fun hk => ⟨htorn, noCompletion_by_budget (writeU16_of_noCompletion v hl he hk)⟩⟩
  · have herr := writeU16_of_doneErr v (s := s.withDraw ⟨.doneErr, junkOfHalf x⟩) hl he rfl
    have hnever := writeU16_of_noCompletion v (s := s.withDraw ⟨.noCompletion, junkOfHalf x⟩) hl he rfl
    rw [State.withDraw_tornHalf s _ hx, State.withDraw_popDraw] at herr hnever
    exact ⟨junkOfHalf x, _, State.readU16_programHalf_self _ a x, herr, noCompletion_by_budget hnever⟩

/-- Settles O9: a page erased reads `0xFF` byte by byte, which its state and its stored checksum are made of; a draw that
names every byte leaves any other contents. -/
theorem erasePageContract : Obligations.ErasePageContract := by
  intro s p hc
  refine ⟨?_, fun contents => ?_⟩
  · rw [← State.nextDraw_eq_drawAt]
    by_cases hok : s.nextDraw.kind = .doneOk
    · have herased : ∀ o < s.cfg.pageSize, (s.clearPage (base s.cfg p)).pageByte p o = 0xFF :=
        fun _ => s.pageByte_clearPage p
      have hsize := payloadSize_add s.cfg hc
      have hcsum : (s.clearPage (base s.cfg p)).csumStored p = 0xFFFF :=
        State.csumStored_of_erased _ p (herased (payloadSize s.cfg) (by omega))
          (herased (payloadSize s.cfg + 1) (by omega))
      refine ⟨s.clearPage (base s.cfg p), fun _ => s.read_clearPage_other p, rfl, fun _ => ?_, fun hk => ?_,
        fun hk => ?_⟩
      · exact ⟨erasePage_of_doneOk _ hok, herased, State.pageState_of_erased hc herased, hcsum⟩
      · simp [hok] at hk
      · simp [hok] at hk
    · exact ⟨s.tearPage (base s.cfg p), fun _ => s.read_tearPage_other p, rfl, fun hk => absurd hk hok,
        erasePage_of_doneErr _, fun hk => noCompletion_by_budget (erasePage_of_noCompletion _ hk)⟩
  · have herr := erasePage_of_doneErr (base s.cfg p)
      (s := s.withDraw ⟨.doneErr, junkOfPage s.cfg.pageSize contents⟩) rfl
    have hnever := erasePage_of_noCompletion (base s.cfg p)
      (s := s.withDraw ⟨.noCompletion, junkOfPage s.cfg.pageSize contents⟩) rfl
    rw [State.withDraw_tearPage] at herr hnever
    refine ⟨junkOfPage s.cfg.pageSize contents, _, fun o ho => ?_, herr, noCompletion_by_budget hnever⟩
    exact Memory.read_writeBytes_junkOfPage _ _ contents ho

/-- Settles O14: canonical fields are two equal bytes, and whatever is not canonical under one order is not under the
other. -/
theorem pageStateIgnoresHalfwordOrder : Obligations.PageStateIgnoresHalfwordOrder := by
  intro s p order _
  refine PageState.eq_of_canonical_iff fun t ht => ?_
  rw [State.pageState_eq_iff_bytes _ p ht, State.pageState_eq_iff_bytes _ p ht]
  exact Iff.rfl

/-- Settles O10, by the draw of the call. -/
theorem unlockContract : Obligations.UnlockContract := by
  intro s
  rw [← State.nextDraw_eq_drawAt]
  rcases unlockFlash_cases s with ⟨hk, he⟩ | ⟨hk, he⟩ | ⟨hk, _⟩
  · exact ⟨fun _ => he, fun h => by simp [hk] at h⟩
  · exact ⟨fun h => by simp [h] at hk, fun _ => he⟩
  · constructor
    · intro h; simp [h] at hk
    · rintro (h | h) <;> simp [h] at hk

end Sys2Proof.Proofs
end

section
/-! SUPPORT. What the decoders read back from the frame words the encoder writes (spec 30_encoding.md R96 to R102;
44_typed_accessors.md R200). -/

namespace Sys2Proof

open Sys2Proof.Laws

/-! ### The fields of a host frame word -/

theorem hostWord_div_cmd {cmd : Nat} (aw addr len : Nat) (hcmd : cmd < 2 ^ 8) :
    hostWord aw cmd addr len / 2 ^ 8 = addr + len * 2 ^ aw := by
  have hword : hostWord aw cmd addr len = cmd + 2 ^ 8 * (addr + len * 2 ^ aw) := by
    rw [hostWord, Nat.pow_add]; ring
  rw [hword, Nat.add_mul_div_left _ _ (Nat.two_pow_pos 8), Nat.div_eq_of_lt hcmd, Nat.zero_add]

theorem frameAddr_hostWord {aw cmd addr : Nat} (len : Nat) (hcmd : cmd < 2 ^ 8) (haddr : addr < 2 ^ aw) :
    frameAddr aw (hostWord aw cmd addr len) = addr := by
  rw [frameAddr, hostWord_div_cmd aw addr len hcmd, Nat.add_mul_mod_self_right, Nat.mod_eq_of_lt haddr]

theorem frameLen_hostWord {aw cmd addr len : Nat} (hcmd : cmd < 2 ^ 8) (haddr : addr < 2 ^ aw) (hlen : len < 2 ^ aw) :
    frameLen aw (hostWord aw cmd addr len) = len := by
  rw [frameLen, Nat.pow_add, ← Nat.div_div_eq_div_mul, hostWord_div_cmd aw addr len hcmd,
    Nat.add_mul_div_right _ _ (Nat.two_pow_pos aw), Nat.div_eq_of_lt haddr, Nat.zero_add, Nat.mod_eq_of_lt hlen]

/-! ### The host port, one equation per command of R101 -/

theorem decodeHost_init {word : Nat} (aw : Nat) (data : List Byte) (h : frameCmd word = 0x01) :
    decodeHost aw word data = .ok .init := by
  rw [decodeHost, h]; rfl

theorem decodeHost_read {word : Nat} (aw : Nat) (data : List Byte) (h : frameCmd word = 0x02) :
    decodeHost aw word data = .ok (.read (frameAddr aw word) (frameLen aw word)) := by
  rw [decodeHost, h]; rfl

theorem decodeHost_write {word : Nat} (aw : Nat) (data : List Byte) (h : frameCmd word = 0x03) :
    decodeHost aw word data =
      .ok (.write (frameAddr aw word) (frameLen aw word) (data.take (frameLen aw word))) := by
  rw [decodeHost, h]; rfl

theorem decodeHost_massErase {word : Nat} (aw : Nat) (data : List Byte) (h : frameCmd word = 0x04) :
    decodeHost aw word data = .ok .massErase := by
  rw [decodeHost, h]; rfl

theorem fitsOperand_and {aw addr len : Nat} (h : (fitsOperand aw addr && fitsOperand aw len) = true) :
    addr < 2 ^ aw ∧ len < 2 ^ aw := by
  simpa [fitsOperand] using h

/-- The word of a `READ` whose operands fit gives them back. -/
theorem decodeHost_readWord {aw addr len : Nat} (data : List Byte)
    (h : (fitsOperand aw addr && fitsOperand aw len) = true) :
    decodeHost aw (hostWord aw 0x02 addr len) data = .ok (.read addr len) := by
  obtain ⟨haddr, hlen⟩ := fitsOperand_and h
  rw [decodeHost_read aw data (FrameCode.host aw 0x02 addr len), frameAddr_hostWord len (by decide) haddr,
    frameLen_hostWord (by decide) haddr hlen]

/-- The word of a `WRITE` whose operands fit gives them back, and all of a byte stream of `LEN` bytes. -/
theorem decodeHost_writeWord {aw addr len : Nat} {data : List Byte}
    (h : (fitsOperand aw addr && fitsOperand aw len) = true) (hdata : data.length = len) :
    decodeHost aw (hostWord aw 0x03 addr len) data = .ok (.write addr len data) := by
  obtain ⟨haddr, hlen⟩ := fitsOperand_and h
  rw [decodeHost_write aw data (FrameCode.host aw 0x03 addr len), frameAddr_hostWord len (by decide) haddr,
    frameLen_hostWord (by decide) haddr hlen, List.take_of_length_le hdata.le]

/-! ### The byte streams of the typed writes (R200) -/

theorem bitField_zero {w : Nat} (v : BitVec w) (n : Nat) : bitField v 0 n = BitVec.ofNat n v.toNat := by
  rw [bitField, Nat.pow_zero, Nat.div_one]

theorem bytes2_length (order : ByteOrder) (v : BitVec 16) : (bytes2 order v).length = 2 := by
  cases order <;> rfl

theorem bytes4_length (order : ByteOrder) (v : BitVec 32) : (bytes4 order v).length = 4 := by
  cases order <;> rfl

/-! ### The internal bus, one equation per code of R102 -/

theorem decodeUbus_decodeState {word : BitVec 72} (h : bitField word 0 8 = 0x10) :
    decodeUbus word = .ok (.decodeState (bitField word 8 64)) := by
  rw [decodeUbus, h]; rfl

theorem decodeUbus_advanceState {word : BitVec 72} (h : bitField word 0 8 = 0x11) :
    decodeUbus word = decodePageOp word .advanceState := by
  rw [decodeUbus, h]; rfl

theorem decodeUbus_setState {word : BitVec 72} (h : bitField word 0 8 = 0x12) :
    decodeUbus word = decodeSetState word := by
  rw [decodeUbus, h]; rfl

theorem decodeUbus_csumCompute {word : BitVec 72} (h : bitField word 0 8 = 0x20) :
    decodeUbus word = decodePageOp word .csumCompute := by
  rw [decodeUbus, h]; rfl

theorem decodeUbus_csumStored {word : BitVec 72} (h : bitField word 0 8 = 0x21) :
    decodeUbus word = decodePageOp word .csumStored := by
  rw [decodeUbus, h]; rfl

theorem decodeUbus_csumIntact {word : BitVec 72} (h : bitField word 0 8 = 0x22) :
    decodeUbus word = decodePageOp word .csumIntact := by
  rw [decodeUbus, h]; rfl

theorem bitField_ubusWord_page (cmd : Byte) (page : BitVec 2) (target : BitVec 3) :
    bitField (ubusWord cmd page target) 8 2 = page := by
  simp only [bitField, ubusWord]; bv_omega

theorem bitField_ubusWord_target (cmd : Byte) (page : BitVec 2) (target : BitVec 3) :
    bitField (ubusWord cmd page target) 10 3 = target := by
  simp only [bitField, ubusWord]; bv_omega

/-- `RAW` lies in `ubus[71:8]`, above the code (R102). -/
theorem bitField_raw (raw : StateWord) : bitField (BitVec.ofNat 72 (0x10 + raw.toNat * 2 ^ 8)) 8 64 = raw := by
  simp only [bitField]; bv_omega

theorem Designator.ofCode_code (page : Designator) : Designator.ofCode page.code = some page := by
  cases page <;> rfl

theorem PageState.ofCode_code (target : PageState) : PageState.ofCode target.code = some target := by
  cases target <;> rfl

theorem decodePageOp_ubusWord (cmd : Byte) (page : Designator) (target : BitVec 3) (op : Designator → Instr) :
    decodePageOp (ubusWord cmd page.code target) op = .ok (op page) := by
  rw [decodePageOp, bitField_ubusWord_page, Designator.ofCode_code]

theorem decodeSetState_ubusWord (cmd : Byte) (page : Designator) (target : PageState) :
    decodeSetState (ubusWord cmd page.code target.code) = .ok (.setState page target) := by
  rw [decodeSetState, bitField_ubusWord_target, PageState.ofCode_code]
  exact decodePageOp_ubusWord cmd page target.code fun page => .setState page target

end Sys2Proof
end

section
/-! SUPPORT. What a step does with the frame it takes (spec 30_encoding.md R100, R105; 60_exceptions.md R232). -/

namespace Sys2Proof.Machine

theorem State.refusal_of_busy {s : State} (hc : legalConfig s.cfg = true) (hb : s.busy = true) :
    s.refusal = some .commandWhileBusy := by
  rw [State.refusal, if_pos hc, if_pos hb]

@[simp] theorem State.latchFrame_refusal (s : State) (f : Frame) : (s.latchFrame f).refusal = s.refusal := by
  cases f <;> rfl

theorem rejectFrame_of_refusal {s : State} {r : Refusal} (e : DecodeError) (h : s.refusal = some r) :
    rejectFrame e s = .refused r := by
  unfold rejectFrame; rw [h]

section
variable {s : State} {f : Frame} {rest : List Input}

/-- A frame that decodes is run as its instruction. An illegal configuration needs no exception: there the instruction
is refused as the step is (R8). -/
theorem step_of_decoded {i : Instr} (hin : s.inputs = .frame f :: rest)
    (hi : decodeFrame s.cfg.addrWidth f = .ok i) : step s = exec i ((s.setInputs rest).latchFrame f) := by
  cases hc : legalConfig s.cfg with
  | true => simp only [step, whenLegal_of_legal s _ hc, hin, hi]
  | false =>
    have hrefused : ((s.setInputs rest).latchFrame f).refusal = some .illegalConfiguration := by
      rw [State.latchFrame_refusal]; exact State.refusal_of_illegal _ hc
    rw [step, whenLegal_of_illegal s _ hc, exec_of_refusal i hrefused]

theorem step_of_rejected {e : DecodeError} (hin : s.inputs = .frame f :: rest)
    (he : decodeFrame s.cfg.addrWidth f = .error e) : step s = rejectFrame e (s.setInputs rest) := by
  cases hc : legalConfig s.cfg with
  | true => simp only [step, whenLegal_of_legal s _ hc, hin, he]
  | false => rw [step, whenLegal_of_illegal s _ hc,
      rejectFrame_of_refusal e (State.refusal_of_illegal (s.setInputs rest) hc)]

/-- What stops the instructions of a state stops its frames, decodable or not. -/
theorem step_of_refusal {r : Refusal} (hin : s.inputs = .frame f :: rest) (h : s.refusal = some r) :
    step s = .refused r := by
  cases hd : decodeFrame s.cfg.addrWidth f with
  | ok i => rw [step_of_decoded hin hd]; exact exec_of_refusal i ((State.latchFrame_refusal _ f).trans h)
  | error e => rw [step_of_rejected hin hd]; exact rejectFrame_of_refusal e h

end

end Sys2Proof.Machine
end

section
/-! The statements of spec 30_encoding.md, and the one of 44_typed_accessors.md about the frames' byte streams. -/

namespace Sys2Proof.Proofs

open Sys2Proof Sys2Proof.Machine Sys2Proof.Laws

/-- Settles O1: on the host port the operands fit their fields and a `WRITE` has `LEN` bytes; on the internal bus the
code of each operand stands for that operand alone. -/
theorem encodedInstructionsDecodeBack : Obligations.EncodedInstructionsDecodeBack := by
  intro cfg i h
  cases i with
  | init => exact decodeHost_init _ _ (FrameCode.init cfg)
  | massErase => exact decodeHost_massErase _ _ (FrameCode.massErase cfg)
  | read | read8 | read16 | read32 => exact decodeHost_readWord [] h
  | write addr len data =>
    obtain ⟨hops, hdata⟩ := Bool.and_eq_true_iff.mp h
    exact decodeHost_writeWord hops (of_decide_eq_true hdata)
  | write8 => exact decodeHost_writeWord h rfl
  | write16 addr v => exact decodeHost_writeWord h (bytes2_length cfg.accOrder v)
  | write32 addr v => exact decodeHost_writeWord h (bytes4_length cfg.accOrder v)
  | decodeState raw =>
    exact (decodeUbus_decodeState (FrameCode.decodeState raw cfg)).trans
      (congrArg (Except.ok ∘ Instr.decodeState) (bitField_raw raw))
  | advanceState page =>
    exact (decodeUbus_advanceState (FrameCode.advanceState page cfg)).trans (decodePageOp_ubusWord _ page _ _)
  | setState page target =>
    exact (decodeUbus_setState (FrameCode.setState page target cfg)).trans (decodeSetState_ubusWord _ page target)
  | csumCompute page =>
    exact (decodeUbus_csumCompute (FrameCode.csumCompute page cfg)).trans (decodePageOp_ubusWord _ page _ _)
  | csumStored page =>
    exact (decodeUbus_csumStored (FrameCode.csumStored page cfg)).trans (decodePageOp_ubusWord _ page _ _)
  | csumIntact page =>
    exact (decodeUbus_csumIntact (FrameCode.csumIntact page cfg)).trans (decodePageOp_ubusWord _ page _ _)

/-- Settles O2: each word is evaluated by the decoder of its port. -/
theorem specFramesDecodeAsWritten : Obligations.SpecFramesDecodeAsWritten :=
  ⟨rfl, rfl, rfl, rfl, rfl, rfl, rfl, rfl⟩

/-- Settles O3, by what each port's frame latches. -/
theorem stepRunsTheDecodedFrame : Obligations.StepRunsTheDecodedFrame := by
  intro s f rest i hin hi
  rw [step_of_decoded hin hi]
  cases f <;> rfl

/-- Settles O5: `BUSY` is a refusal, which stops instructions and frames alike. -/
theorem nothingRunsWhileBusy : Obligations.NothingRunsWhileBusy := by
  intro s hc hb
  have hrefused := State.refusal_of_busy hc hb
  exact ⟨fun i => exec_of_refusal i hrefused, fun f rest hin => step_of_refusal hin hrefused⟩

/-- Settles O37: the fields of `bytes_2` and `bytes_4` are the bytes of the statement, the one at bit 0 being the low
byte. -/
theorem typedWritesAreWrites : Obligations.TypedWritesAreWrites := by
  intro s addr v8 v16 v32
  refine ⟨rfl, ?_, ?_⟩
  · change writeCommand addr 2 (bytes2 s.cfg.accOrder v16) s = writeCommand addr 2 _ s
    cases s.cfg.accOrder <;> rw [bytes2, bitField_zero] <;> rfl
  · change writeCommand addr 4 (bytes4 s.cfg.accOrder v32) s = writeCommand addr 4 _ s
    cases s.cfg.accOrder <;> rw [bytes4, bitField_zero] <;> rfl

end Sys2Proof.Proofs
end

section
/-! SUPPORT. The page state codec: what each word decodes to, how many leading fields of a page are zero, and what
SET_STATE does with the first field that does not hold its target's value (spec 40_page_state_codec.md R121 to R131). -/

namespace Sys2Proof.Machine

/-! ### DECODE_STATE and ADVANCE_STATE -/

/-- The five patterns of R121 and everything else. -/
theorem decodeStateWord_cases (raw : StateWord) :
    (raw = 0xFFFF_FFFF_FFFF_FFFF ∧ decodeStateWord raw = .erased) ∨
    (raw = 0x0000_FFFF_FFFF_FFFF ∧ decodeStateWord raw = .write) ∨
    (raw = 0x0000_0000_FFFF_FFFF ∧ decodeStateWord raw = .valid) ∨
    (raw = 0x0000_0000_0000_FFFF ∧ decodeStateWord raw = .copy) ∨
    (raw = 0x0000_0000_0000_0000 ∧ decodeStateWord raw = .invalid) ∨
    ((raw ≠ 0xFFFF_FFFF_FFFF_FFFF ∧ raw ≠ 0x0000_FFFF_FFFF_FFFF ∧ raw ≠ 0x0000_0000_FFFF_FFFF ∧
      raw ≠ 0x0000_0000_0000_FFFF ∧ raw ≠ 0x0000_0000_0000_0000) ∧ decodeStateWord raw = .corrupt) := by
  unfold decodeStateWord
  split_ifs <;> simp_all

/-- `{f0, f1, f2, f3}` as a number, field 0 most significant (R11, R124). -/
theorem concat_fields_toNat (f0 f1 f2 f3 : Half) :
    (concat32 (concat16 f0 f1) (concat16 f2 f3)).toNat =
      f0.toNat * 2 ^ 48 + f1.toNat * 2 ^ 32 + f2.toNat * 2 ^ 16 + f3.toNat := by
  have h0 := f0.isLt
  have h1 := f1.isLt
  have h2 := f2.isLt
  have h3 := f3.isLt
  simp only [concat32, concat16, BitVec.toNat_ofNat]
  omega

/-- The state word is made of the halfwords at the offsets `P + 2`, `P + 4`, `P + 6` and `P + 8` (R53, R124). -/
theorem State.stateWord_toNat (s : State) (p : Page) :
    (s.stateWord p).toNat =
      (s.readU16 (base s.cfg p + payloadSize s.cfg + 2)).toNat * 2 ^ 48 +
      (s.readU16 (base s.cfg p + payloadSize s.cfg + 4)).toNat * 2 ^ 32 +
      (s.readU16 (base s.cfg p + payloadSize s.cfg + 6)).toNat * 2 ^ 16 +
      (s.readU16 (base s.cfg p + payloadSize s.cfg + 8)).toNat :=
  concat_fields_toNat _ _ _ _

/-- The frame of `ADVANCE_STATE` has nothing above its `PAGE` (R102). -/
theorem encode_advanceState (cfg : Config) (page : Designator) :
    encode cfg (.advanceState page) = .ubus (BitVec.ofNat 72 (0x11 + page.code.toNat * 2 ^ 8)) := by
  cases page <;> rfl

/-- A micro-operation that comes to its value where the block is ready leaves the value as its answer (R120). -/
theorem microOperation_of_done {s t : State} {run : State → Res MicroResult} {r : MicroResult} (h : s.ready)
    (hrun : run s = .done r t) (hin : t.inputs = s.inputs) : microOperation (some run) s = .next (t.setUres r) := by
  obtain ⟨hc, hb, hreset⟩ := h
  rw [microOperation_eq_next]
  refine ⟨hb, hc, ?_⟩
  rw [hrun, Res.settleMicro, State.endIn_of_none t _ ((State.resetInside_congr hin).trans hreset)]

theorem State.setSreg_setUres (s : State) (w : StateWord) (r : MicroResult) :
    (s.setSreg w).setUres r = { s with sreg := w, ures := r } := rfl

/-- `ADVANCE_STATE` presented alone (R124). The state word goes through lemmas: a comparison of two states by evaluation
would evaluate it. -/
theorem exec_advanceState_of_ready {s : State} (h : s.ready) (p : Page) :
    exec (.advanceState (designatorOf p)) s =
      .next { s with sreg := s.stateWord p, ures := .state (decodeStateWord (s.stateWord p)) } := by
  have hrun := microOperation_of_done (run := fun s => .done (.state (s.pageState p)) (s.loadSreg p)) h rfl
    (s.setSreg_inputs (s.stateWord p))
  rw [← onPage_designatorOf p fun p s => .done (.state (s.pageState p)) (s.loadSreg p), State.loadSreg,
    State.pageState, State.setSreg_setUres] at hrun
  exact hrun

/-! ### The zero fields of a page -/

/-- The first `n` of a page's four fields are zero and the others erased: the fields of the canonical state with the
number `n` (R92). -/
def State.zeroFields (s : State) (p : Page) (n : Nat) : Prop :=
  ∀ k < 4, s.readU16 (fieldAddr s.cfg p k) = if k < n then 0x0000 else 0xFFFF

theorem State.pageState_eq_iff_zeroFields (s : State) (p : Page) {t : PageState} (ht : t ≠ .corrupt) :
    s.pageState p = t ↔ s.zeroFields p (stateNumber t) := by
  rw [s.pageState_eq_iff p t ht]
  constructor
  · rintro ⟨h0, h1, h2, h3⟩ k hk
    match k, hk with
    | 0, _ => exact h0
    | 1, _ => exact h1
    | 2, _ => exact h2
    | 3, _ => exact h3
  · intro h
    exact ⟨h 0 (by decide), h 1 (by decide), h 2 (by decide), h 3 (by decide)⟩

theorem stateNumber_le (t : PageState) : stateNumber t ≤ 4 := by
  cases t <;> decide

/-- Programming the first erased field makes one more field zero (R126). -/
theorem State.zeroFields_programHalf {s : State} {p : Page} {n : Nat} (h : s.zeroFields p n) :
    (s.programHalf (fieldAddr s.cfg p n) 0x0000).zeroFields p (n + 1) := by
  intro k hk
  rw [State.programHalf_cfg]
  by_cases hkn : k = n
  · rw [hkn, State.readU16_programHalf_self, if_pos (Nat.lt_succ_self n)]
  · rw [State.readU16_programHalf_other _ _ _ _ (by simp only [fieldAddr]; omega), h k hk]
    have hiff : k < n ↔ k < n + 1 := by omega
    simp only [hiff]

/-- The fields of a page are read from the bytes of that page (R52, R53). -/
theorem State.zeroFields_congr {s t : State} {p : Page} {n : Nat} (hlegal : legalConfig s.cfg = true)
    (hc : t.cfg = s.cfg) (hf : ∀ b, inPage s.cfg p b → t.flash.read b = s.flash.read b) (h : s.zeroFields p n) :
    t.zeroFields p n := by
  have hsize := payloadSize_add s.cfg hlegal
  intro k hk
  have hin (d : Nat) (hd : d < 2) : inPage s.cfg p (fieldAddr s.cfg p k + d) := by
    simp only [inPage, fieldAddr]; omega
  have hlo := hf _ (hin 0 (by decide))
  have hhi := hf _ (hin 1 (by decide))
  rw [Nat.add_zero] at hlo
  rw [← h k hk, hc, State.readU16_eq, State.readU16_eq, hc, hlo, hhi]

/-! ### The turn of one field -/

section
variable {p : Page} {target : PageState} {k : Nat} {s : State}

theorem targetField_of_lt (hk : k < stateNumber target) : targetField target k = 0x0000 := if_pos hk

theorem targetField_of_ge (hk : stateNumber target ≤ k) : targetField target k = 0xFFFF := if_neg (Nat.not_lt.mpr hk)

/-- A field that holds its target's value is left alone (R126). -/
theorem setField_of_held (h : s.readU16 (fieldAddr s.cfg p k) = targetField target k) :
    setField p target k s = .done () s := by
  rcases Nat.lt_or_ge k (stateNumber target) with hk | hk
  · rw [setField, h, targetField_of_lt hk, if_neg (by decide), if_neg (not_not.mpr rfl)]
  · rw [setField, h, targetField_of_ge hk, if_pos rfl, if_neg (not_not.mpr rfl)]

/-- A field that must still be all ones and is not (R127). -/
theorem setField_of_violation (hk : stateNumber target ≤ k) (h : s.readU16 (fieldAddr s.cfg p k) ≠ 0xFFFF) :
    setField p target k s = .raised .stateTransitionViolation s := by
  rw [setField, if_pos (targetField_of_ge hk), if_pos h]

/-- A field that must become zero and is not is programmed (R126). -/
theorem setField_of_program (hk : k < stateNumber target) (h : s.readU16 (fieldAddr s.cfg p k) ≠ 0x0000) :
    setField p target k s = (writeU16 (fieldAddr s.cfg p k) 0x0000 s).orProgramError := by
  rw [setField, targetField_of_lt hk, if_neg (by decide), if_pos h]

/-- The program of a field is refused under the lock and on a torn field (R130, R131). -/
theorem setField_of_refused (hk : k < stateNumber target) (h : s.readU16 (fieldAddr s.cfg p k) ≠ 0x0000)
    (hr : s.lock = .locked ∨ s.readU16 (fieldAddr s.cfg p k) ≠ 0xFFFF) :
    setField p target k s = .raised .hardwareProgramError s := by
  have hwrite : writeU16 (fieldAddr s.cfg p k) 0x0000 s = .done false s :=
    hr.elim (writeU16_locked _ _ s) (writeU16_notErased _ _ s)
  rw [setField_of_program hk h, hwrite, Res.orProgramError_done_false]

theorem setField_of_erased (hk : k < stateNumber target) (h : s.readU16 (fieldAddr s.cfg p k) = 0xFFFF)
    (hl : s.lock = .unlocked) (hd : s.nextDraw.kind = .doneOk) :
    setField p target k s = .done () (s.popDraw.programHalf (fieldAddr s.cfg p k) 0x0000) := by
  rw [setField_of_program hk (by rw [h]; decide), writeU16_ok _ _ s hl h hd, Res.orProgramError_done_true]

/-! ### The pass over the fields -/

/-- The pass comes unchanged to the first field that does not hold its target's value. -/
theorem setPageState_eq_from (hk : k ≤ 4) (h : ∀ j < k, s.readU16 (fieldAddr s.cfg p j) = targetField target j) :
    setPageState p target s = Res.forEach (setField p target) (List.range' k (4 - k)) s := by
  induction k with
  | zero => rfl
  | succ k ih =>
    have hrest : List.range' k (4 - k) = k :: List.range' (k + 1) (4 - (k + 1)) := by
      rw [show 4 - k = 4 - (k + 1) + 1 by omega, List.range'_succ]
    rw [ih (by omega) fun j hj => h j (by omega), hrest, Res.forEach_cons, setField_of_held (h k (by omega)),
      Res.andThen_done]

theorem setPageState_of_turn (hk : k < 4) (h : ∀ j < k, s.readU16 (fieldAddr s.cfg p j) = targetField target j) :
    setPageState p target s =
      (setField p target k s).andThen fun _ t => Res.forEach (setField p target) (List.range' (k + 1) (3 - k)) t := by
  rw [setPageState_eq_from hk.le h, show 4 - k = 3 - k + 1 by omega, List.range'_succ, Res.forEach_cons]

/-- A page whose fields all hold the target is left alone (R128). -/
theorem setPageState_of_held (h : ∀ j < 4, s.readU16 (fieldAddr s.cfg p j) = targetField target j) :
    setPageState p target s = .done () s :=
  setPageState_eq_from le_rfl h

/-- The first field that is not as the target has it and raises a kind ends the pass (R15, R126). -/
theorem setPageState_of_raised {e : ErrorKind} (hk : k < 4)
    (h : ∀ j < k, s.readU16 (fieldAddr s.cfg p j) = targetField target j)
    (hr : setField p target k s = .raised e s) : setPageState p target s = .raised e s := by
  rw [setPageState_of_turn hk h, hr, Res.andThen_raised]

/-- After a field that was programmed, the pass goes on as one begun in the new state would. -/
theorem setPageState_of_done {t : State} (hk : k < 4)
    (h : ∀ j < k, s.readU16 (fieldAddr s.cfg p j) = targetField target j) (hd : setField p target k s = .done () t)
    (ht : ∀ j < k + 1, t.readU16 (fieldAddr t.cfg p j) = targetField target j) :
    setPageState p target s = setPageState p target t := by
  rw [setPageState_of_turn hk h, hd, Res.andThen_done, setPageState_eq_from hk ht, show 4 - (k + 1) = 3 - k by omega]

/-! ### SET_STATE from a canonical state -/

variable {c : Nat}

/-- The zero fields of the page, as far as the target has zeros too, are as the target has them. -/
theorem State.zeroFields.held (h : s.zeroFields p c) (hc : c ≤ stateNumber target) :
    ∀ j < c, s.readU16 (fieldAddr s.cfg p j) = targetField target j := by
  have hle := stateNumber_le target
  intro j hj
  rw [h j (by omega), targetField_of_lt (by omega), if_pos hj]

/-- A target behind the page's state meets a zero where it has all ones (R127, R128). -/
theorem setPageState_of_behind (h : s.zeroFields p c) (hc : c ≤ 4) (ht : stateNumber target < c) :
    setPageState p target s = .raised .stateTransitionViolation s := by
  refine setPageState_of_raised (k := stateNumber target) (by omega) (fun j hj => ?_) (setField_of_violation le_rfl ?_)
  · rw [h j (by omega), targetField_of_lt hj, if_pos (by omega)]
  · rw [h _ (by omega), if_pos ht]; decide

/-- A target ahead of the page's state has a field to write, which the lock refuses (R131). -/
theorem setPageState_of_locked (h : s.zeroFields p c) (hl : s.lock = .locked) (ht : c < stateNumber target) :
    setPageState p target s = .raised .hardwareProgramError s := by
  have hle := stateNumber_le target
  refine setPageState_of_raised (by omega) (h.held ht.le) (setField_of_refused ht ?_ (.inl hl))
  rw [h c (by omega), if_neg (Nat.lt_irrefl c)]; decide

theorem setPageState_of_same (h : s.zeroFields p (stateNumber target)) : setPageState p target s = .done () s :=
  setPageState_of_held h

/-- `n` programs lead to a target `n` fields ahead (R128). -/
theorem setPageState_of_ahead {n : Nat} (h : s.zeroFields p c) (hn : c + n = stateNumber target)
    (hl : s.lock = .unlocked) (hq : s.quiet n) :
    ∃ t, setPageState p target s = .done () t ∧ t.zeroFields p (stateNumber target) ∧
      t = { s with flash := t.flash, draws := s.draws.drop n, drawn := s.drawn + n } := by
  have hle := stateNumber_le target
  induction n generalizing c s with
  | zero =>
    obtain rfl : c = stateNumber target := by omega
    exact ⟨s, setPageState_of_same h, h, rfl⟩
  | succ n ih =>
    have hdraw : s.nextDraw.kind = .doneOk := by rw [State.nextDraw_eq_drawAt]; exact hq 0 (by omega)
    have herased : s.readU16 (fieldAddr s.cfg p c) = 0xFFFF := by rw [h c (by omega), if_neg (Nat.lt_irrefl c)]
    have hfields : (s.popDraw.programHalf (fieldAddr s.cfg p c) 0x0000).zeroFields p (c + 1) :=
      State.zeroFields_programHalf (s := s.popDraw) h
    obtain ⟨t, hdone, hzero, ht⟩ := ih hfields (by omega) hl (s.quiet_popDraw n hq)
    refine ⟨t, ?_, hzero, ?_⟩
    · rw [← hdone]
      exact setPageState_of_done (by omega) (h.held (by omega)) (setField_of_erased (by omega) herased hl hdraw)
        (hfields.held (by omega))
    · have hdraws : s.draws.drop (n + 1) = s.draws.tail.drop n := by rw [← List.drop_one, List.drop_drop, Nat.add_comm]
      have hdrawn : s.drawn + (n + 1) = s.drawn + 1 + n := by omega
      rw [ht, hdraws, hdrawn]
      rfl

/-! ### SET_STATE presented alone -/

theorem exec_setState_of_raised {e : ErrorKind} (hs : s.ready) (ht : target ≠ .corrupt)
    (h : setPageState p target s = .raised e s) :
    exec (.setState (designatorOf p) target) s = .next { s with ures := .raised e } := by
  rw [exec_setState_of_ready hs p ht, h, Res.andThen_raised, Res.settleMicro, State.endIn_of_none s _ hs.2.2]
  rfl

theorem exec_setState_of_done {t : State} (hs : s.ready) (ht : target ≠ .corrupt)
    (h : setPageState p target s = .done () t) (hin : t.inputs = s.inputs) :
    exec (.setState (designatorOf p) target) s = .next (t.setUres .ok) := by
  rw [exec_setState_of_ready hs p ht, h, Res.andThen_done, Res.settleMicro,
    State.endIn_of_none t _ ((State.resetInside_congr hin).trans hs.2.2)]

end

end Sys2Proof.Machine
end

section
/-! SUPPORT. `INIT` and `WRITE` up to the first call that can fail: an erase and an unlock that succeed (spec
42_arbiter_init_read_erase.md R154; 43_arbiter_write.md R171 to R177). -/

namespace Sys2Proof.Machine

/-- The fresh store absent hardware error (R154). -/
theorem freshStore_of_doneOk {s : State} (hd : s.nextDraw.kind = .doneOk) :
    freshStore s = .done () ((s.clearPage (base s.cfg .p1)).designate .p1) := by
  rw [freshStore, erasePage_of_doneOk _ hd, Res.orProgramError_done_true, Res.andThen_done]

/-- The state `INIT` leaves on a fresh store whose erase succeeds (R154). -/
def State.openedFresh (s : State) : State :=
  { s.clearPage (base s.cfg .p1) with
    cmd := 0x01
    active := .page1
    inactive := .page2
    sreg := s.stateWord .p2
    status := .ok
    step := .idle
    busy := false }

theorem exec_init_of_fresh {s : State} (hs : s.ready)
    (h : selectPage (s.pageState .p1) (s.pageState .p2) = none) (hd : s.nextDraw.kind = .doneOk) :
    exec .init s = .next s.openedFresh := by
  have hword : (s.accept 0x01).stateWord .p2 = s.stateWord .p2 := State.stateWord_congr .p2 rfl rfl
  rw [exec_init_of_ready hs, initBody_of_none (s.accept 0x01) h, State.loadSreg_loadSreg, hword,
    freshStore_of_doneOk (s := { s.accept 0x01 with sreg := s.stateWord .p2 }) hd, Res.settle_done]
  exact congrArg Host.Outcome.next (State.endIn_of_none _ _ hs.2.2)

/-- The state in which `WRITE` begins its steps: accepted, its operands latched (R100). -/
def State.beginWrite (s : State) (addr len : Nat) (data : List Byte) : State :=
  { s with cmd := 0x03, busy := true, step := .idle, addr := addr, len := len, wdata := data }

/-- A `WRITE` that passes its precondition goes through its ten steps (R171, R172). -/
theorem exec_write_of_allowed {s : State} {a : Page} {addr len : Nat} {data : List Byte}
    (h : WriteAllowed s a addr len data) :
    exec (.write addr len data) s = .next (writeSteps a (otherPage a) (s.beginWrite addr len data)).settle := by
  obtain ⟨⟨hc, hb, _⟩, ⟨ha, hi⟩, hlen, hrange⟩ := h
  have hactive : pageOf (s.beginWrite addr len data).active = some a := (pageOf_eq_some _ _).mpr ha
  have hinactive : pageOf (s.beginWrite addr len data).inactive = some (otherPage a) := (pageOf_eq_some _ _).mpr hi
  have hin : (s.beginWrite addr len data).inRange = true :=
    decide_eq_true ⟨fun hn => designatorOf_ne_none a (ha.symm.trans hn), hrange⟩
  refine (writeCommand_eq_next addr len data s _).mpr ⟨hb, hc, hlen, fun hn => ?_, ?_⟩
  · exact designatorOf_ne_none _ (hi.symm.trans hn.2)
  · change _ = (writeBody (s.beginWrite addr len data)).settle
    simp only [writeBody, hactive, hinactive, hin, if_true]

/-- A `WRITE` one of whose steps raises a kind takes the abort path (R218). -/
theorem exec_write_of_raised {s t : State} {a : Page} {addr len : Nat} {data : List Byte} {e : ErrorKind}
    (h : WriteAllowed s a addr len data)
    (hr : writeSteps a (otherPage a) (s.beginWrite addr len data) = .raised e t) (hin : t.inputs = s.inputs) :
    exec (.write addr len data) s = .next (t.abort e) := by
  rw [exec_write_of_allowed h, hr, Res.settle_raised,
    State.endIn_of_none t _ ((State.resetInside_congr hin).trans h.ready.2.2)]

/-- The state step 1 leaves where its erase succeeds (R176). -/
def State.afterStep1 (s : State) (b : Page) : State :=
  { s with
    step := .s1
    flash := s.flash.erase (base s.cfg b) s.cfg.pageSize
    draws := s.draws.tail
    drawn := s.drawn + 1 }

/-- The state step 2 leaves where its unlock succeeds (R177). -/
def State.afterStep2 (s : State) : State :=
  { s with lock := .unlocked, step := .s2, draws := s.draws.tail, drawn := s.drawn + 1 }

theorem writeStep1_of_doneOk (b : Page) {s : State} (hd : s.nextDraw.kind = .doneOk) :
    writeStep1 b s = .done () (s.afterStep1 b) := by
  rw [writeStep1, erasePage_of_doneOk _ (s := s.setStep .s1) hd, Res.orProgramError_done_true]
  rfl

theorem writeStep2_of_doneOk {s : State} (hd : s.nextDraw.kind = .doneOk) :
    writeStep2 s = .done () s.afterStep2 := by
  have hunlock : unlockFlash (s.setStep .s2) = .done .unlocked ((s.setStep .s2).popDraw.setLock .unlocked) := by
    simp [unlockFlash, show (s.setStep .s2).nextDraw.kind = .doneOk from hd]
  rw [writeStep2, hunlock, Res.andThen_done, if_pos rfl]
  rfl

/-- The state in which step 3 begins once the erase of page `b` and the unlock have succeeded (R176, R177). -/
def State.beforeMark (s : State) (b : Page) : State :=
  { s with
    lock := .unlocked
    step := .s2
    flash := s.flash.erase (base s.cfg b) s.cfg.pageSize
    draws := s.draws.drop 2
    drawn := s.drawn + 2 }

theorem State.afterStep2_afterStep1 (s : State) (b : Page) : (s.afterStep1 b).afterStep2 = s.beforeMark b := by
  have hdrop : s.draws.drop 2 = s.draws.tail.tail := by rw [← List.drop_one, ← List.drop_one, List.drop_drop]
  rw [State.beforeMark, hdrop]
  rfl

/-- What an abort in step 3 leaves: flash is locked again, as the unlock has been attempted (R218). -/
theorem State.abort_beforeMark (s : State) (b : Page) (addr : Nat) (data : List Byte) (k : ErrorKind) :
    (((s.beginWrite addr data.length data).beforeMark b).setStep .s3).abort k =
      { s.afterWrite addr data (.error k) with
        lock := .locked
        flash := s.flash.erase (base s.cfg b) s.cfg.pageSize
        draws := s.draws.drop 2
        drawn := s.drawn + 2 } :=
  State.abort_eq _ k

/-- Where step 3 raises a kind after an erase and an unlock that succeeded, the steps end with that kind (R15, R178). -/
theorem writeSteps_of_mark_raised {a b : Page} {s t : State} {e : ErrorKind} (hq : s.quiet 2)
    (h : writeStep3 a (s.beforeMark b) = .raised e t) : writeSteps a b s = .raised e t := by
  have hdraw1 : s.nextDraw.kind = .doneOk := by rw [State.nextDraw_eq_drawAt]; exact hq 0 (by decide)
  have hdraw2 : (s.afterStep1 b).nextDraw.kind = .doneOk := by
    rw [State.nextDraw_eq_drawAt]; exact s.quiet_popDraw 1 hq 0 (by decide)
  rw [writeSteps, writeStep1_of_doneOk b hdraw1, Res.andThen_done, writeStep2_of_doneOk hdraw2, Res.andThen_done,
    State.afterStep2_afterStep1, h, Res.andThen_raised]

end Sys2Proof.Machine
end

section
/-! The statements of spec 40_page_state_codec.md, and those of the arbiter's commands that rest on them: `INIT` on a
fresh store and `WRITE` from a retired page. -/

namespace Sys2Proof.Proofs

open Sys2Proof Sys2Proof.Machine

/-- Settles O12: each word is one of the five patterns or none of them. -/
theorem decodeStateMatchesFivePatterns : Obligations.DecodeStateMatchesFivePatterns := by
  intro s raw hs
  refine ⟨encodedInstructionsDecodeBack s.cfg (.decodeState raw) rfl, decodeStateWord raw,
    microOperation_of_done hs rfl rfl, ?_⟩
  rcases decodeStateWord_cases raw with ⟨rfl, h⟩ | ⟨rfl, h⟩ | ⟨rfl, h⟩ | ⟨rfl, h⟩ | ⟨rfl, h⟩ | ⟨hne, h⟩ <;> rw [h]
  case inr.inr.inr.inr.inr => simp only [reduceCtorEq, true_iff, hne]; tauto
  all_goals decide

/-- Settles O13: the state word is the four halfwords, and its decoding is the page's state. -/
theorem advanceStateReadsFourFields : Obligations.AdvanceStateReadsFourFields := by
  intro s p hs
  have hframe := encodedInstructionsDecodeBack s.cfg (.advanceState (designatorOf p)) (by cases p <;> rfl)
  rw [encode_advanceState] at hframe
  exact ⟨hframe, s.stateWord p, s.stateWord_toNat p, exec_advanceState_of_ready hs p⟩

/-- Settles O15: ahead of the page's state each field between is programmed, behind it the first one is a violation. -/
theorem setStateBetweenCanonicalStates : Obligations.SetStateBetweenCanonicalStates := by
  intro s p current target hs hl hp hcur ht hq
  have hzero := (s.pageState_eq_iff_zeroFields p hcur).mp hp
  have hle := stateNumber_le target
  refine ⟨fun hahead => ?_, fun hbehind => ?_⟩
  · obtain ⟨t, hdone, hfields, heq⟩ := setPageState_of_ahead hzero (Nat.add_sub_of_le hahead) hl
      fun k hk => hq k (by omega)
    have hout := (setPageState_clearsStateWord p target s).outside
    rw [hdone] at hout
    refine ⟨t.setUres .ok, exec_setState_of_done hs ht hdone (by rw [heq]), ?_, hout, ?_⟩
    · exact (t.pageState_eq_iff_zeroFields p ht).mpr hfields
    · rw [heq]; rfl
  · exact exec_setState_of_raised hs ht (setPageState_of_behind hzero (stateNumber_le current) hbehind)

/-- Settles O17: the pass comes to the torn field, whose program is refused. -/
theorem setStateTornFieldIsProgramError : Obligations.SetStateTornFieldIsProgramError := by
  intro s p target k hs ht hk hbefore hne hne'
  have hle := stateNumber_le target
  refine exec_setState_of_raised hs ht
    (setPageState_of_raised (by omega) (fun j hj => ?_) (setField_of_refused hk hne (.inr hne')))
  rw [hbefore j hj, targetField_of_lt (by omega)]

/-- Settles O18: only a target ahead has a field to write, which the lock refuses. -/
theorem setStateUnderLock : Obligations.SetStateUnderLock := by
  intro s p current target hs hl hp hcur ht
  have hzero := (s.pageState_eq_iff_zeroFields p hcur).mp hp
  refine ⟨fun hahead => ?_, fun hsame => ?_, fun hbehind => ?_⟩
  · exact exec_setState_of_raised hs ht (setPageState_of_locked hzero hl hahead)
  · subst hsame
    exact exec_setState_of_done hs ht (setPageState_of_same hzero) rfl
  · exact exec_setState_of_raised hs ht (setPageState_of_behind hzero (stateNumber_le current) hbehind)

/-- Settles O25: the one erase succeeds, and an erased page is never intact. -/
theorem initFreshStoreErasesPageOne : Obligations.InitFreshStoreErasesPageOne := by
  intro s hs h1 h2 h3 h4 hq
  have hdraw : s.nextDraw.kind = .doneOk := by rw [State.nextDraw_eq_drawAt]; exact hq 0 (by decide)
  have herased : ∀ o < s.cfg.pageSize, s.openedFresh.pageByte .p1 o = 0xFF := fun _ => s.pageByte_clearPage .p1
  obtain ⟨_, hstored, hintact⟩ := erasedPageIsNeverIntact s.openedFresh .p1 hs.1 herased
  exact ⟨s.openedFresh, exec_init_of_fresh hs (selectPage_eq_none h1 h2 h3 h4) hdraw, herased,
    fun _ => s.read_clearPage_other .p1, State.pageState_of_erased hs.1 herased, hstored, hintact, rfl⟩

/-- Settles O47: the erase and the unlock succeed, and COPY is behind a page whose fields are all zero. -/
theorem writeFromRetiredPageIsViolation : Obligations.WriteFromRetiredPageIsViolation := by
  intro s a addr len data h hp hq
  obtain ⟨⟨hlegal, _⟩, _, rfl, _⟩ := id h
  have hout (b : Nat) (hb : ¬ inPage s.cfg (otherPage a) b) :
      (s.flash.erase (base s.cfg (otherPage a)) s.cfg.pageSize).read b = s.flash.read b :=
    s.read_clearPage_other (otherPage a) hb
  have hzero : (((s.beginWrite addr data.length data).beforeMark (otherPage a)).setStep .s3).zeroFields a 4 :=
    State.zeroFields_congr hlegal rfl (fun b hb => hout b fun hb' => not_inPage_both s.cfg hlegal a b hb hb')
      ((s.pageState_eq_iff_zeroFields a (by decide)).mp hp)
  have hsteps := writeSteps_of_mark_raised (s := s.beginWrite addr data.length data) hq
    (setPageState_of_behind (target := .copy) hzero le_rfl (by decide))
  have hrun := exec_write_of_raised h hsteps rfl
  rw [State.abort_beforeMark] at hrun
  exact ⟨_, hrun, fun _ => s.pageByte_clearPage (otherPage a), hout, rfl⟩

end Sys2Proof.Proofs
end

section
/-! SUPPORT. The checksum unit as instructions of its own, and what its sum and its stored halfword are read from (spec
30_encoding.md R102; 41_checksum.md R141 to R146). -/

namespace Sys2Proof.Machine

/-! ### The instructions -/

/-- A micro-operation frame with no `TARGET` has nothing above its `PAGE` (R102). -/
theorem ubusWord_noTarget (cmd : Byte) (page : BitVec 2) :
    ubusWord cmd page 0 = BitVec.ofNat 72 (cmd.toNat + page.toNat * 2 ^ 8) := by
  simp [ubusWord]

/-- What an instruction of the checksum unit answers where the block is ready (R140). -/
theorem pageOperation_of_done {s t : State} {r : MicroResult} (h : s.ready) (p : Page)
    (run : Page → State → Res MicroResult) (hrun : run p s = .done r t) (hin : t.inputs = s.inputs) :
    microOperation (onPage (designatorOf p) run) s = .next (t.setUres r) := by
  rw [onPage_designatorOf]
  exact microOperation_of_done h hrun hin

section
variable {s : State} (h : s.ready) (p : Page)
include h

theorem exec_csumCompute_of_ready :
    exec (.csumCompute (designatorOf p)) s = .next { s with acc := s.csumCompute p, ures := .half (s.csumCompute p) } :=
  pageOperation_of_done h p (fun p s => .done (.half (s.csumCompute p)) (s.loadAcc p)) rfl rfl

theorem exec_csumStored_of_ready :
    exec (.csumStored (designatorOf p)) s = .next { s with ures := .half (s.csumStored p) } :=
  pageOperation_of_done h p (fun p s => .done (.half (s.csumStored p)) s) rfl rfl

theorem exec_csumIntact_of_ready :
    exec (.csumIntact (designatorOf p)) s = .next { s with acc := s.csumCompute p, ures := .bit (s.csumIntact p) } :=
  pageOperation_of_done h p (fun p s => .done (.bit (s.csumIntact p)) (s.loadAcc p)) rfl rfl

end

/-! ### What the sum and the stored halfword are read from -/

theorem State.csumIntact_iff (s : State) (p : Page) :
    s.csumIntact p = true ↔ s.csumStored p = s.csumCompute p := by
  simp [State.csumIntact]

theorem composeHalf_toNat (order : ByteOrder) (b0 b1 : Byte) :
    (composeHalf order b0 b1).toNat =
      match order with
      | .be => b0.toNat * 2 ^ 8 + b1.toNat
      | .le => b0.toNat + b1.toNat * 2 ^ 8 := by
  have h0 := b0.isLt
  have h1 := b1.isLt
  cases order <;> simp only [composeHalf, concat8, BitVec.toNat_ofNat] <;> omega

section
variable {s t : State} {p : Page}

/-- The sum is one of payload bytes alone (R141). -/
theorem State.csumCompute_congr (hc : t.cfg = s.cfg) (h : ∀ o < payloadSize s.cfg, t.pageByte p o = s.pageByte p o) :
    t.csumCompute p = s.csumCompute p := by
  have hbytes : ((List.range (payloadSize s.cfg)).map fun o => (t.pageByte p o).toNat) =
      (List.range (payloadSize s.cfg)).map fun o => (s.pageByte p o).toNat :=
    List.map_congr_left fun o ho => by rw [h o (List.mem_range.mp ho)]
  apply BitVec.eq_of_toNat_eq
  rw [t.csumCompute_toNat, s.csumCompute_toNat, hc, hbytes]

/-- The stored checksum is one of the two bytes behind the payload alone (R142). -/
theorem State.csumStored_congr (hc : t.cfg = s.cfg)
    (h0 : t.pageByte p (payloadSize s.cfg) = s.pageByte p (payloadSize s.cfg))
    (h1 : t.pageByte p (payloadSize s.cfg + 1) = s.pageByte p (payloadSize s.cfg + 1)) :
    t.csumStored p = s.csumStored p := by
  rw [t.csumStored_eq, s.csumStored_eq, hc, h0, h1]

/-- Whether a page is intact is said by its payload and its checksum, not by its state word (R143). -/
theorem State.csumIntact_congr (hc : t.cfg = s.cfg)
    (h : ∀ o < payloadSize s.cfg + 2, t.pageByte p o = s.pageByte p o) : t.csumIntact p = s.csumIntact p := by
  rw [State.csumIntact, State.csumIntact, State.csumCompute_congr hc fun o ho => h o (by omega),
    State.csumStored_congr hc (h _ (by omega)) (h _ (by omega))]

end

/-- Two lists of summands that differ at `o` only: what one sum has more than the other is what it has more there. -/
theorem sum_map_range_of_eq_off {f g : Nat → Nat} {n o : Nat} (ho : o < n) (h : ∀ i, i ≠ o → g i = f i) :
    ((List.range n).map g).sum + f o = ((List.range n).map f).sum + g o := by
  induction n with
  | zero => omega
  | succ n ih =>
    simp only [List.range_succ, List.map_append, List.map_cons, List.map_nil, List.sum_append, List.sum_cons,
      List.sum_nil]
    by_cases hn : o = n
    · subst hn
      have hbefore : (List.range o).map g = (List.range o).map f :=
        List.map_congr_left fun i hi => h i (List.mem_range.mp hi).ne
      rw [hbefore]; omega
    · have hlast := h n (Ne.symm hn)
      have hbefore := ih (by omega)
      omega

/-- A page with the byte `b` written at offset `o`, its other bytes as before. -/
def State.withPageByte (s : State) (p : Page) (o : Nat) (b : Byte) : State :=
  { s with flash := s.flash.write (base s.cfg p + o) b }

@[simp] theorem State.withPageByte_cfg (s : State) (p : Page) (o : Nat) (b : Byte) :
    (s.withPageByte p o b).cfg = s.cfg := rfl

theorem State.pageByte_withPageByte (s : State) (p : Page) (o i : Nat) (b : Byte) :
    (s.withPageByte p o b).pageByte p i = if i = o then b else s.pageByte p i :=
  (Memory.read_write _ _ _ _).trans (if_congr Nat.add_left_cancel_iff rfl rfl)

/-- A byte in the payload is none of the stored checksum's (R142). -/
theorem State.csumStored_withPageByte {s : State} {o : Nat} (p : Page) (b : Byte) (ho : o < payloadSize s.cfg) :
    (s.withPageByte p o b).csumStored p = s.csumStored p := by
  have hbehind {i : Nat} (hi : payloadSize s.cfg ≤ i) : (s.withPageByte p o b).pageByte p i = s.pageByte p i := by
    rw [s.pageByte_withPageByte, if_neg (by omega)]
  exact State.csumStored_congr rfl (hbehind le_rfl) (hbehind (Nat.le_succ _))

/-- Another byte in the payload gives another sum: the difference is less than 256, so it is not lost modulo 65536
(R146). -/
theorem State.csumCompute_withPageByte_ne {s : State} {p : Page} {o : Nat} {b : Byte} (ho : o < payloadSize s.cfg)
    (hb : b ≠ s.pageByte p o) : (s.withPageByte p o b).csumCompute p ≠ s.csumCompute p := by
  intro heq
  have hsum := sum_map_range_of_eq_off (f := fun i => (s.pageByte p i).toNat)
    (g := fun i => ((s.withPageByte p o b).pageByte p i).toNat) ho
    fun i hi => by rw [s.pageByte_withPageByte, if_neg hi]
  have hmod := congrArg BitVec.toNat heq
  rw [(s.withPageByte p o b).csumCompute_toNat, s.csumCompute_toNat, s.withPageByte_cfg] at hmod
  rw [s.pageByte_withPageByte, if_pos rfl] at hsum
  have hne : b.toNat ≠ (s.pageByte p o).toNat := fun h => hb (BitVec.eq_of_toNat_eq h)
  have hlt := b.isLt
  have hlt' := (s.pageByte p o).isLt
  omega

theorem xor_twoPow_ne (b : Byte) {k : Nat} (hk : k < 8) : b ^^^ BitVec.twoPow 8 k ≠ b := by
  intro h
  have hbit := congrArg (BitVec.getLsbD · k) h
  simp [hk] at hbit

end Sys2Proof.Machine
end

section
/-! The statements of spec 41_checksum.md about the three instructions of the unit and about a flipped bit. -/

namespace Sys2Proof.Proofs

open Sys2Proof Sys2Proof.Machine

/-- Settles O19: `ACC` is a 16-bit word, so that its sum is the bytes' sum modulo 65536. -/
theorem checksumIsSumModulo65536 : Obligations.ChecksumIsSumModulo65536 := by
  intro s p hs
  have hframe := encodedInstructionsDecodeBack s.cfg (.csumCompute (designatorOf p)) (by cases p <;> rfl)
  rw [encode, ubusWord_noTarget] at hframe
  exact ⟨hframe, s.csumCompute p, s.csumCompute_toNat p, exec_csumCompute_of_ready hs p⟩

/-- Settles O20: the halfword's two bytes lie behind the payload, and both are `0xFF` on an erased page. -/
theorem storedChecksumIsHalfwordAtP : Obligations.StoredChecksumIsHalfwordAtP := by
  intro s p hs
  have hframe := encodedInstructionsDecodeBack s.cfg (.csumStored (designatorOf p)) (by cases p <;> rfl)
  rw [encode, ubusWord_noTarget] at hframe
  have hsize := payloadSize_add s.cfg hs.1
  refine ⟨hframe, s.csumStored p, ?_, exec_csumStored_of_ready hs p, fun herased => ?_⟩
  · exact composeHalf_toNat s.cfg.hwOrder _ _
  · exact s.csumStored_of_erased p (herased _ (by omega)) (herased _ (by omega))

/-- Settles O21: the bit compares what the two other instructions answer from the same state. -/
theorem intactMeansStoredEqualsComputed : Obligations.IntactMeansStoredEqualsComputed := by
  intro s p hs
  have hframe := encodedInstructionsDecodeBack s.cfg (.csumIntact (designatorOf p)) (by cases p <;> rfl)
  rw [encode, ubusWord_noTarget] at hframe
  exact ⟨hframe, s.csumStored p, s.csumCompute p, s.csumIntact p, _, _, exec_csumStored_of_ready hs p, rfl,
    exec_csumCompute_of_ready hs p, rfl, s.csumIntact_iff p, exec_csumIntact_of_ready hs p⟩

/-- Settles O22: the flipped bit changes the computed sum and not the stored one. -/
theorem payloadBitFlipBreaksIntact : Obligations.PayloadBitFlipBreaksIntact := by
  intro s p o k _ ho hk hintact
  change (s.withPageByte p o (s.pageByte p o ^^^ BitVec.twoPow 8 k)).csumIntact p = false
  rw [State.csumIntact_eq_false, State.csumStored_withPageByte p _ ho, (s.csumIntact_iff p).mp hintact]
  exact (State.csumCompute_withPageByte_ne ho (xor_twoPow_ne _ hk)).symm

end Sys2Proof.Proofs
end

section
/-! SUPPORT. Parts of a command whose calls succeed up to one before which power is lost: how such parts are chained,
what SET_STATE leaves then, and what it leaves unchanged (spec 20_memory.md R61; 40_page_state_codec.md R126;
70_reset_and_hazards.md R242). -/

namespace Sys2Proof.Machine

/-! ### Draws that end in a power loss -/

/-- The calls from now on succeed up to one before which power is lost, and `d` is the draw behind that call's: the
first one of what runs after the power loss (R242; log entry 9). -/
def State.cutAhead (s : State) (d : Draw) : Prop :=
  ∃ n, s.quiet n ∧ (s.drawAt n).kind = .cutBefore ∧ s.drawAt (n + 1) = d

theorem State.cutAhead_cases {s : State} {d : Draw} (h : s.cutAhead d) :
    (s.nextDraw.kind = .doneOk ∧ s.popDraw.cutAhead d) ∨
    (s.nextDraw.kind = .cutBefore ∧ s.popDraw.nextDraw = d) := by
  obtain ⟨n, hq, hk, hd⟩ := h
  rw [State.nextDraw_eq_drawAt, State.nextDraw_eq_drawAt, State.drawAt_popDraw]
  cases n with
  | zero => exact .inr ⟨hk, hd⟩
  | succ n =>
    refine .inl ⟨hq 0 (by omega), n, s.quiet_popDraw n hq, ?_, ?_⟩ <;> rw [State.drawAt_popDraw] <;> assumption

theorem writeU16_of_cutBefore {a : Nat} (v : Half) {s : State} (hl : s.lock = .unlocked)
    (he : s.readU16 a = 0xFFFF) (hk : s.nextDraw.kind = .cutBefore) : writeU16 a v s = .powerLost s.popDraw := by
  simp [writeU16, hl, he, hk]

theorem erasePage_of_cutBefore (a : Nat) {s : State} (hk : s.nextDraw.kind = .cutBefore) :
    erasePage a s = .powerLost s.popDraw := by
  simp [erasePage, hk]

theorem unlockFlash_of_cutBefore {s : State} (hk : s.nextDraw.kind = .cutBefore) :
    unlockFlash s = .powerLost s.popDraw := by
  simp [unlockFlash, hk]

/-! ### Parts that are done or lose power -/

/-- The part is done in a state of `done` or loses power in one of `cut`; it neither raises nor hangs. -/
def Res.Meets (done cut : State → Prop) : Res Unit → Prop
  | .done _ s => done s
  | .raised _ _ => False
  | .hung _ => False
  | .powerLost s => cut s

section
variable {done done' cut cut' : State → Prop}

theorem Res.Meets.imp {r : Res Unit} (h : r.Meets done cut) (hd : ∀ t, done t → done' t) (hc : ∀ t, cut t → cut' t) :
    r.Meets done' cut' := by
  cases r with
  | done _ t => exact hd t h
  | powerLost t => exact hc t h
  | raised | hung => exact h

/-- What holds of the state a part ends in, however it ends, holds in both cases. -/
theorem Res.Meets.and_state {r : Res Unit} {kept : State → Prop} (h : r.Meets done cut) (hk : kept r.state) :
    r.Meets (fun t => done t ∧ kept t) (fun t => cut t ∧ kept t) := by
  cases r with
  | done _ t => exact ⟨h, hk⟩
  | powerLost t => exact ⟨h, hk⟩
  | raised | hung => exact h

theorem Res.Meets.andThen {r : Res Unit} {k : Unit → State → Res Unit} (h : r.Meets done cut)
    (hk : ∀ t, done t → (k () t).Meets done' cut) : (r.andThen k).Meets done' cut := by
  cases r with
  | done _ t => exact hk t h
  | powerLost t => exact h
  | raised | hung => exact h

/-- Turn `j` of a pass over `f 0`, `f 1` and so on leads from the invariant `I j` to the next one. -/
theorem Res.Meets.forEach_range {α : Type} {part : α → State → Res Unit} {f : Nat → α} {I : Nat → State → Prop}
    {n : Nat} (hturn : ∀ j < n, ∀ s, I j s → (part (f j) s).Meets (I (j + 1)) cut) {s : State} (h : I 0 s) :
    (Res.forEach part ((List.range n).map f) s).Meets (I n) cut := by
  have from_turn (l j : Nat) (hl : j + l = n) (s : State) (h : I j s) :
      (Res.forEach part ((List.range' j l).map f) s).Meets (I n) cut := by
    induction l generalizing j s with
    | zero =>
      obtain rfl : j = n := by omega
      exact h
    | succ l ih => exact (hturn j (by omega) s h).andThen fun t ht => ih (j + 1) (by omega) t ht
  rw [List.range_eq_range']
  exact from_turn n 0 (Nat.zero_add n) s h

end

/-! ### SET_STATE -/

theorem eq_otherPage_of_ne {p q : Page} (h : q ≠ p) : q = otherPage p := by
  revert h
  cases p <;> cases q <;> decide

/-- Only the state word of page `p`, the draws and `FBUSY` differ: what SET_STATE leaves of a state (R120). -/
structure Marked (p : Page) (s t : State) : Prop where
  registers : FlashOnly s t
  stateWord : ClearsStateWord p s t

theorem setPageState_marked (p : Page) (target : PageState) (s : State) :
    Marked p s (setPageState p target s).state :=
  ⟨setPageState_flashOnly p target s, setPageState_clearsStateWord p target s⟩

theorem inPage_of_inStateWord {c : Config} {p : Page} {b : Nat} (hc : legalConfig c = true) (h : inStateWord c p b) :
    inPage c p b := by
  have hsize := payloadSize_add c hc
  simp only [inStateWord, fieldAddr] at h
  simp only [inPage]
  omega

section
variable {p : Page} {s t : State} (h : Marked p s t) (hc : legalConfig s.cfg = true)
include h hc

theorem Marked.read_other {b : Nat} (hb : inPage s.cfg (otherPage p) b) : t.flash.read b = s.flash.read b :=
  h.stateWord.outside b fun hin => not_inPage_both s.cfg hc p b (inPage_of_inStateWord hc hin) hb

/-- Payload and checksum of either page are as before. -/
theorem Marked.pageByte (q : Page) {o : Nat} (ho : o < payloadSize s.cfg + 2) : t.pageByte q o = s.pageByte q o := by
  have hsize := payloadSize_add s.cfg hc
  rw [State.pageByte, State.pageByte, h.registers.cfg]
  by_cases hq : q = p
  · subst hq
    refine h.stateWord.outside _ fun hin => ?_
    simp only [inStateWord, fieldAddr] at hin
    omega
  · obtain rfl := eq_otherPage_of_ne hq
    exact h.read_other hc ⟨by omega, by omega⟩

theorem Marked.zeroFields_other {n : Nat} (hz : s.zeroFields (otherPage p) n) : t.zeroFields (otherPage p) n :=
  State.zeroFields_congr hc h.registers.cfg (fun _ => h.read_other hc) hz

end

/-- SET_STATE towards a target `c` zero fields short of it: it is reached, or power is lost with some of the fields
between written (R126, R128). -/
theorem setPageState_meets {p : Page} {target : PageState} {c : Nat} {s : State} {d : Draw} (h : s.zeroFields p c)
    (hc : c ≤ stateNumber target) (hl : s.lock = .unlocked) (hd : s.cutAhead d) :
    (setPageState p target s).Meets
      (fun t => (t.zeroFields p (stateNumber target) ∧ t.cutAhead d) ∧ Marked p s t)
      (fun t => (∃ k, c ≤ k ∧ k < stateNumber target ∧ t.zeroFields p k ∧ t.nextDraw = d) ∧ Marked p s t) := by
  refine Res.Meets.and_state ?_ (setPageState_marked p target s)
  have hle := stateNumber_le target
  obtain ⟨n, hn⟩ := Nat.exists_eq_add_of_le hc
  induction n generalizing c s with
  | zero =>
    obtain rfl : c = stateNumber target := by omega
    rw [setPageState_of_same h]
    exact ⟨h, hd⟩
  | succ n ih =>
    have herased : s.readU16 (fieldAddr s.cfg p c) = 0xFFFF := by rw [h c (by omega), if_neg (Nat.lt_irrefl c)]
    rcases State.cutAhead_cases hd with ⟨hk, hd'⟩ | ⟨hk, hd'⟩
    · have hfields : (s.popDraw.programHalf (fieldAddr s.cfg p c) 0x0000).zeroFields p (c + 1) :=
        State.zeroFields_programHalf (s := s.popDraw) h
      rw [setPageState_of_done (by omega) (h.held (by omega)) (setField_of_erased (by omega) herased hl hk)
        (hfields.held (by omega))]
      refine (ih hfields (by omega) hl hd' (by omega)).imp (fun _ => id) fun t ht => ?_
      obtain ⟨k, hlo, hhi, hz⟩ := ht
      exact ⟨k, by omega, hhi, hz⟩
    · rw [setPageState_of_turn (by omega) (h.held (by omega)),
        setField_of_program (by omega) (by rw [herased]; decide), writeU16_of_cutBefore _ hl herased hk]
      exact ⟨c, le_rfl, by omega, h, hd'⟩

end Sys2Proof.Machine
end

section
/-! SUPPORT. The ten steps of a `WRITE` up to a power loss before one of their calls: what flash holds at each step, and
which store the power loss leaves (spec 43_arbiter_write.md R176 to R188). -/

namespace Sys2Proof.Machine

theorem FlashOnly.kept {s t : State} (h : FlashOnly s t) : Kept s t := by
  rw [h]
  exact ⟨rfl, rfl, rfl, rfl, rfl, rfl, rfl, rfl, rfl⟩

section
variable {m s : State} (h : Kept m s)
include h

theorem Kept.setStep (k : StepReg) : Kept m (s.setStep k) := h.trans ⟨rfl, rfl, rfl, rfl, rfl, rfl, rfl, rfl, rfl⟩
theorem Kept.loadAcc (p : Page) : Kept m (s.loadAcc p) := h.trans ⟨rfl, rfl, rfl, rfl, rfl, rfl, rfl, rfl, rfl⟩
theorem Kept.popDraw : Kept m s.popDraw := h.trans (FlashOnly.kept rfl)
theorem Kept.programHalf (x : Nat) (v : Half) : Kept m (s.programHalf x v) := h.trans (FlashOnly.kept rfl)

end

theorem State.pageByte_programHalf (s : State) (p : Page) (i o : Nat) (v : Half) :
    (s.programHalf (base s.cfg p + i) v).pageByte p o =
      if o = i then loAddrByte s.cfg.hwOrder v
      else if o = i + 1 then hiAddrByte s.cfg.hwOrder v else s.pageByte p o := by
  refine (s.read_programHalf _ _ v).trans (if_congr Nat.add_left_cancel_iff rfl (if_congr ?_ rfl rfl))
  rw [Nat.add_assoc]
  exact Nat.add_left_cancel_iff

/-! ### What flash holds while a `WRITE` is under way -/

/-- Steps 3 to 8 of the `WRITE` begun in `m` with page `a` active: `a` has its payload and checksum still, and the first
`i` of its fields are zero, as are the first `j` of the other page's. -/
structure UnderWay (m : State) (a : Page) (i j : Nat) (s : State) : Prop where
  kept : Kept m s
  unlocked : s.lock = .unlocked
  old : ∀ o < payloadSize m.cfg + 2, s.pageByte a o = m.pageByte a o
  fields : s.zeroFields a i
  otherFields : s.zeroFields (otherPage a) j

/-- The other page holds the first `n` bytes of the merged payload and is erased from there to its state word. -/
def HoldsMerged (m : State) (a : Page) (n : Nat) (s : State) : Prop :=
  ∀ o < payloadSize m.cfg + 2, s.pageByte (otherPage a) o = if o < n then m.merged a o else 0xFF

/-- The other page holds the merged payload and its checksum (R181, R182). -/
structure HoldsNew (m : State) (a : Page) (s : State) : Prop where
  payload : ∀ o < payloadSize m.cfg, s.pageByte (otherPage a) o = m.merged a o
  intact : s.csumIntact (otherPage a) = true

/-- The store as the `WRITE` found it, `i` of page `a`'s fields zero: the other page is on the way to VALID, or the
erase of step 1 has not begun. -/
structure OldStands (m : State) (a : Page) (i : Nat) (s : State) : Prop where
  cfg : s.cfg = m.cfg
  inputs : s.inputs = m.inputs
  old : ∀ o < payloadSize m.cfg + 2, s.pageByte a o = m.pageByte a o
  fields : s.zeroFields a i
  other : s.pageState (otherPage a) = .erased ∨ s.pageState (otherPage a) = .write ∨
    (m.nextDraw.kind = .cutBefore ∧ s.pageState (otherPage a) = m.pageState (otherPage a))

/-- The store as the `WRITE` would have it: the other page is committed (R183). -/
structure NewStands (m : State) (a : Page) (s : State) : Prop where
  cfg : s.cfg = m.cfg
  inputs : s.inputs = m.inputs
  new : HoldsNew m a s
  valid : s.pageState (otherPage a) = .valid
  retired : s.pageState a ≠ .valid

/-- What a power loss leaves: the old store with at least `c` and at most three fields of page `a` zero, or the new
one; `d` is the next draw. -/
def LeavesStore (m : State) (a : Page) (c : Nat) (d : Draw) (s : State) : Prop :=
  s.nextDraw = d ∧ ((∃ i, c ≤ i ∧ i ≤ 3 ∧ OldStands m a i s) ∨ NewStands m a s)

section
variable {m s t : State} {a : Page} {i j n k c : Nat} {d : Draw}

theorem UnderWay.setStep (h : UnderWay m a i j s) (k : StepReg) : UnderWay m a i j (s.setStep k) :=
  { h with kept := h.kept.setStep k }

theorem UnderWay.loadAcc (h : UnderWay m a i j s) (p : Page) : UnderWay m a i j (s.loadAcc p) :=
  { h with kept := h.kept.loadAcc p }

theorem UnderWay.popDraw (h : UnderWay m a i j s) : UnderWay m a i j s.popDraw :=
  { h with kept := h.kept.popDraw }

/-- Before the commit a power loss leaves the old store. -/
theorem UnderWay.oldStands (h : UnderWay m a i j s) (hj : j ≤ 1) : OldStands m a i s where
  cfg := h.kept.cfg
  inputs := h.kept.inputs
  old := h.old
  fields := h.fields
  other := by
    have hz := h.otherFields
    obtain rfl | rfl : j = 0 ∨ j = 1 := by omega
    · exact .inl ((s.pageState_eq_iff_zeroFields _ (by decide)).mpr hz)
    · exact .inr (.inl ((s.pageState_eq_iff_zeroFields _ (by decide)).mpr hz))

theorem UnderWay.leavesOld (h : UnderWay m a i j s) (hj : j ≤ 1) (hc : c ≤ i) (hi : i ≤ 3) (hd : s.nextDraw = d) :
    LeavesStore m a c d s :=
  ⟨hd, .inl ⟨i, hc, hi, h.oldStands hj⟩⟩

/-- `Q` says something of payload and checksum of the other page alone. -/
def OfOtherBytes (m : State) (a : Page) (Q : State → Prop) : Prop :=
  ∀ s t, s.cfg = m.cfg → t.cfg = m.cfg →
    (∀ o < payloadSize m.cfg + 2, t.pageByte (otherPage a) o = s.pageByte (otherPage a) o) → Q s → Q t

theorem HoldsMerged.ofOtherBytes (m : State) (a : Page) (n : Nat) : OfOtherBytes m a (HoldsMerged m a n) :=
  fun _ _ _ _ hb h o ho => (hb o ho).trans (h o ho)

theorem HoldsNew.ofOtherBytes (m : State) (a : Page) : OfOtherBytes m a (HoldsNew m a) :=
  fun _ _ hs ht hb h =>
    { payload := fun o ho => (hb o (by omega)).trans (h.payload o ho)
      intact := (State.csumIntact_congr (ht.trans hs.symm) (by rwa [hs])).trans h.intact }

/-! ### A page marked -/

section
variable (h : UnderWay m a i j s) (hl : legalConfig m.cfg = true)
include h hl

theorem UnderWay.legal : legalConfig s.cfg = true := by
  rw [h.kept.cfg]; exact hl

/-- Marking either page keeps payload and checksum of both. -/
theorem UnderWay.marked_pageByte {p : Page} (hm : Marked p s t) (q : Page) {o : Nat}
    (ho : o < payloadSize m.cfg + 2) : t.pageByte q o = s.pageByte q o :=
  hm.pageByte (h.legal hl) q (by rw [h.kept.cfg]; exact ho)

theorem UnderWay.marked (hm : Marked a s t) (hz : t.zeroFields a k) : UnderWay m a k j t where
  kept := h.kept.trans hm.registers.kept
  unlocked := hm.registers.lock.trans h.unlocked
  old o ho := (h.marked_pageByte hl hm a ho).trans (h.old o ho)
  fields := hz
  otherFields := hm.zeroFields_other (h.legal hl) h.otherFields

theorem UnderWay.otherMarked (hm : Marked (otherPage a) s t) (hz : t.zeroFields (otherPage a) k) :
    UnderWay m a i k t where
  kept := h.kept.trans hm.registers.kept
  unlocked := hm.registers.lock.trans h.unlocked
  old o ho := (h.marked_pageByte hl hm a ho).trans (h.old o ho)
  fields := by
    have hfields := hm.zeroFields_other (n := i) (h.legal hl)
    rw [otherPage_otherPage] at hfields
    exact hfields h.fields
  otherFields := hz

/-! ### A halfword programmed below the state word of the other page -/

theorem UnderWay.programmed {o : Nat} (v : Half) (ho : o + 2 ≤ payloadSize m.cfg + 2) :
    UnderWay m a i j (s.popDraw.programHalf (base m.cfg (otherPage a) + o) v) := by
  have hsize := payloadSize_add m.cfg hl
  have hcfg := h.kept.cfg
  have hdisjoint := base_disjoint m.cfg hl a
  refine ⟨h.kept.popDraw.programHalf _ v, h.unlocked, fun x hx => ?_, ?_, fun k hk => ?_⟩
  · refine (State.read_programHalf_other s.popDraw _ v ?_ ?_).trans (h.old x hx)
    · change base s.cfg a + x ≠ _
      rw [hcfg]; omega
    · change base s.cfg a + x ≠ _
      rw [hcfg]; omega
  · refine State.zeroFields_congr (h.legal hl) rfl (fun b hb => ?_) h.fields
    rw [hcfg, inPage] at hb
    exact State.read_programHalf_other s.popDraw _ v (by omega) (by omega)
  · refine (State.readU16_programHalf_other s.popDraw _ _ v (.inr ?_)).trans (h.otherFields k hk)
    change _ < fieldAddr s.cfg _ k
    rw [hcfg, fieldAddr]; omega

end

end

end Sys2Proof.Machine
end

section
/-! SUPPORT. The steps of a `WRITE` one by one, and the store a power loss before one of their calls leaves (spec
43_arbiter_write.md R176 to R188). -/

namespace Sys2Proof.Machine

/-- A `WRITE` under way whose calls go on to succeed up to a power loss, the other page holding what `Q` says. -/
structure Stage (m : State) (a : Page) (d : Draw) (i j : Nat) (Q : State → Prop) (s : State) : Prop where
  underWay : UnderWay m a i j s
  draws : s.cutAhead d
  holds : Q s

section
variable {m s t : State} {a : Page} {i j k c : Nat} {d : Draw} {Q : State → Prop}

theorem Stage.setStep (h : Stage m a d i j Q s) (hQ : OfOtherBytes m a Q) (k : StepReg) :
    Stage m a d i j Q (s.setStep k) where
  underWay := h.underWay.setStep k
  draws := h.draws
  holds := hQ s _ h.underWay.kept.cfg h.underWay.kept.cfg (fun _ _ => rfl) h.holds

/-! ### The steps that mark a page -/

/-- Page `a` marked: steps 3 and 8. -/
theorem Stage.mark (h : Stage m a d i j Q s) (hl : legalConfig m.cfg = true) (hQ : OfOtherBytes m a Q)
    {target : PageState} (ht : i ≤ stateNumber target) :
    (setPageState a target s).Meets (Stage m a d (stateNumber target) j Q)
      (fun t => ∃ k, i ≤ k ∧ k < stateNumber target ∧ UnderWay m a k j t ∧ Q t ∧ t.nextDraw = d) := by
  have holds {t : State} (hm : Marked a s t) : Q t :=
    hQ s t h.underWay.kept.cfg (hm.registers.cfg.trans h.underWay.kept.cfg)
      (fun _ => h.underWay.marked_pageByte hl hm (otherPage a)) h.holds
  refine (setPageState_meets h.underWay.fields ht h.underWay.unlocked h.draws).imp ?_ ?_
  · rintro t ⟨⟨hz, hd⟩, hm⟩
    exact ⟨h.underWay.marked hl hm hz, hd, holds hm⟩
  · rintro t ⟨⟨k, hlo, hhi, hz, hd⟩, hm⟩
    exact ⟨k, hlo, hhi, h.underWay.marked hl hm hz, holds hm, hd⟩

/-- The other page marked: steps 4 and 7. -/
theorem Stage.markOther (h : Stage m a d i j Q s) (hl : legalConfig m.cfg = true) (hQ : OfOtherBytes m a Q)
    {target : PageState} (ht : j ≤ stateNumber target) :
    (setPageState (otherPage a) target s).Meets (Stage m a d i (stateNumber target) Q)
      (fun t => ∃ k, j ≤ k ∧ k < stateNumber target ∧ UnderWay m a i k t ∧ t.nextDraw = d) := by
  refine (setPageState_meets h.underWay.otherFields ht h.underWay.unlocked h.draws).imp ?_ ?_
  · rintro t ⟨⟨hz, hd⟩, hm⟩
    refine ⟨h.underWay.otherMarked hl hm hz, hd, ?_⟩
    exact hQ s t h.underWay.kept.cfg (hm.registers.cfg.trans h.underWay.kept.cfg)
      (fun _ => h.underWay.marked_pageByte hl hm (otherPage a)) h.holds
  · rintro t ⟨⟨k, hlo, hhi, hz, hd⟩, hm⟩
    exact ⟨k, hlo, hhi, h.underWay.otherMarked hl hm hz, hd⟩

theorem writeStep3_meets (h : Stage m a d c 0 Q s) (hl : legalConfig m.cfg = true) (hQ : OfOtherBytes m a Q)
    (hc : c ≤ 3) : (writeStep3 a s).Meets (Stage m a d 3 0 Q) (LeavesStore m a c d) := by
  refine ((h.setStep hQ .s3).mark hl hQ (target := .copy) hc).imp (fun _ => id) ?_
  rintro t ⟨k, hlo, hhi, hu, _, hd⟩
  exact hu.leavesOld (by decide) hlo hhi.le hd

theorem writeStep4_meets (h : Stage m a d 3 0 Q s) (hl : legalConfig m.cfg = true) (hQ : OfOtherBytes m a Q)
    (hc : c ≤ 3) : (writeStep4 (otherPage a) s).Meets (Stage m a d 3 1 Q) (LeavesStore m a c d) := by
  refine ((h.setStep hQ .s4).markOther hl hQ (target := .write) (by decide)).imp (fun _ => id) ?_
  rintro t ⟨k, _, hhi, hu, hd⟩
  exact hu.leavesOld hhi.le hc le_rfl hd

theorem writeStep7_meets (h : Stage m a d 3 1 (HoldsNew m a) s) (hl : legalConfig m.cfg = true) (hc : c ≤ 3) :
    (writeStep7 (otherPage a) s).Meets (Stage m a d 3 2 (HoldsNew m a)) (LeavesStore m a c d) := by
  have hQ := HoldsNew.ofOtherBytes m a
  refine ((h.setStep hQ .s7).markOther hl hQ (target := .valid) (by decide)).imp (fun _ => id) ?_
  rintro t ⟨k, _, hhi, hu, hd⟩
  exact hu.leavesOld (Nat.le_of_lt_succ hhi) hc le_rfl hd

/-- Once the other page is VALID the new store stands, page `a` being COPY or INVALID (R183, R184). -/
theorem UnderWay.newStands (h : UnderWay m a i 2 s) (hn : HoldsNew m a s) (hi : i = 3 ∨ i = 4) : NewStands m a s where
  cfg := h.kept.cfg
  inputs := h.kept.inputs
  new := hn
  valid := (s.pageState_eq_iff_zeroFields _ (t := .valid) (by decide)).mpr h.otherFields
  retired := by
    have hfields := h.fields
    rcases hi with rfl | rfl
    · rw [(s.pageState_eq_iff_zeroFields a (t := .copy) (by decide)).mpr hfields]; decide
    · rw [(s.pageState_eq_iff_zeroFields a (t := .invalid) (by decide)).mpr hfields]; decide

theorem writeStep8_meets (h : Stage m a d 3 2 (HoldsNew m a) s) (hl : legalConfig m.cfg = true) :
    (writeStep8 a s).Meets (NewStands m a) (LeavesStore m a c d) := by
  have hQ := HoldsNew.ofOtherBytes m a
  refine ((h.setStep hQ .s8).mark hl hQ (target := .invalid) (by decide)).imp (fun t ht => ?_) ?_
  · exact ht.underWay.newStands ht.holds (.inr rfl)
  · rintro t ⟨k, hlo, hhi, hu, hn, hd⟩
    exact ⟨hd, .inr (hu.newStands hn (.inl (Nat.le_antisymm (Nat.le_of_lt_succ hhi) hlo)))⟩

/-! ### Step 5: the merged payload -/

/-- The merged payload is the one of the start: operands and the payload of page `a` are as they were (R181). -/
theorem UnderWay.merged (h : UnderWay m a i j s) {o : Nat} (ho : o < payloadSize m.cfg) :
    s.merged a o = m.merged a o := by
  have hold : s.readU8 (base s.cfg a + o) = m.readU8 (base m.cfg a + o) := h.old o (by omega)
  rw [State.merged, State.merged, h.kept.addr, h.kept.len, h.kept.wdata, hold]

theorem UnderWay.mergedHalf (h : UnderWay m a i j s) (ho : k + 1 < payloadSize m.cfg) :
    s.mergedHalf a k = composeHalf m.cfg.hwOrder (m.merged a k) (m.merged a (k + 1)) := by
  rw [State.mergedHalf, h.kept.cfg, h.merged ho, h.merged (by omega)]

theorem UnderWay.readU16_other (h : UnderWay m a i j s) (k : Nat) :
    s.readU16 (base m.cfg (otherPage a) + k) =
      composeHalf m.cfg.hwOrder (s.pageByte (otherPage a) k) (s.pageByte (otherPage a) (k + 1)) := by
  rw [← h.kept.cfg]; rfl

theorem HoldsMerged.next (h : HoldsMerged m a k s) (h0 : t.pageByte (otherPage a) k = m.merged a k)
    (h1 : t.pageByte (otherPage a) (k + 1) = m.merged a (k + 1))
    (hb : ∀ o, o ≠ k → o ≠ k + 1 → t.pageByte (otherPage a) o = s.pageByte (otherPage a) o) :
    HoldsMerged m a (k + 2) t := by
  intro o ho
  by_cases ho0 : o = k
  · rw [ho0, h0, if_pos (by omega)]
  by_cases ho1 : o = k + 1
  · rw [ho1, h1, if_pos (by omega)]
  · have hiff : o < k ↔ o < k + 2 := by omega
    rw [hb o ho0 ho1, h o ho]
    simp only [hiff]

/-- A halfword of the other page that is still erased is programmed, or power is lost before it is. -/
theorem Stage.program (h : Stage m a d 3 1 Q s) (hl : legalConfig m.cfg = true) (hc : c ≤ 3) (v : Half)
    (hk : k + 2 ≤ payloadSize m.cfg + 2) (he : s.readU16 (base m.cfg (otherPage a) + k) = 0xFFFF)
    {Q' : State → Prop} (hQ' : Q' (s.popDraw.programHalf (base m.cfg (otherPage a) + k) v)) :
    (writeU16 (base m.cfg (otherPage a) + k) v s).orProgramError.Meets (Stage m a d 3 1 Q') (LeavesStore m a c d) := by
  rcases State.cutAhead_cases h.draws with ⟨hdraw, hd⟩ | ⟨hdraw, hd⟩
  · rw [writeU16_ok _ v s h.underWay.unlocked he hdraw]
    exact ⟨h.underWay.programmed hl v hk, hd, hQ'⟩
  · rw [writeU16_of_cutBefore v h.underWay.unlocked he hdraw]
    exact h.underWay.popDraw.leavesOld le_rfl hc le_rfl hd

theorem UnderWay.pageByte_programmed (h : UnderWay m a i j s) (k o : Nat) (v : Half) :
    (s.popDraw.programHalf (base m.cfg (otherPage a) + k) v).pageByte (otherPage a) o =
      if o = k then loAddrByte m.cfg.hwOrder v
      else if o = k + 1 then hiAddrByte m.cfg.hwOrder v else s.pageByte (otherPage a) o := by
  rw [← h.kept.cfg]
  exact s.popDraw.pageByte_programHalf (otherPage a) k o v

theorem streamHalf_meets (h : Stage m a d 3 1 (HoldsMerged m a k) s) (hl : legalConfig m.cfg = true) (hc : c ≤ 3)
    (hk : k + 1 < payloadSize m.cfg) :
    (streamHalf a (otherPage a) k s).Meets (Stage m a d 3 1 (HoldsMerged m a (k + 2))) (LeavesStore m a c d) := by
  have hu := h.underWay
  rw [streamHalf, hu.kept.cfg, hu.mergedHalf hk]
  split
  · refine h.program hl hc _ (by omega) ?_ (h.holds.next ?_ ?_ fun o h0 h1 => ?_)
    · rw [hu.readU16_other, h.holds k (by omega), h.holds (k + 1) (by omega), if_neg (Nat.lt_irrefl k),
        if_neg (Nat.not_succ_lt_self), composeHalf_erased]
    · rw [hu.pageByte_programmed, if_pos rfl, loAddrByte_compose]
    · rw [hu.pageByte_programmed, if_neg (Nat.succ_ne_self k), if_pos rfl, hiAddrByte_compose]
    · rw [hu.pageByte_programmed, if_neg h0, if_neg h1]
  next heq =>
    obtain ⟨h0, h1⟩ := composeHalf_inj.mp ((hu.readU16_other k).symm.trans (not_not.mp heq))
    exact ⟨hu, h.draws, h.holds.next h0 h1 fun _ _ _ => rfl⟩

theorem writeStep5_meets (h : Stage m a d 3 1 (HoldsMerged m a 0) s) (hl : legalConfig m.cfg = true) (hc : c ≤ 3) :
    (writeStep5 a (otherPage a) s).Meets (Stage m a d 3 1 (HoldsMerged m a (payloadSize m.cfg)))
      (LeavesStore m a c d) := by
  have heven : 2 * (payloadSize m.cfg / 2) = payloadSize m.cfg := by
    have := payloadSize_even m.cfg hl
    omega
  have hpass := Res.Meets.forEach_range (part := streamHalf a (otherPage a)) (f := (2 * ·))
    (I := fun j => Stage m a d 3 1 (HoldsMerged m a (2 * j))) (n := payloadSize m.cfg / 2)
    (fun j hj u hu => streamHalf_meets hu hl hc (show 2 * j + 1 < _ by omega))
    (h.setStep (HoldsMerged.ofOtherBytes m a 0) .s5)
  rw [heven] at hpass
  rw [writeStep5, halfOffsets, h.underWay.kept.cfg]
  exact hpass

/-! ### Step 6: the checksum -/

/-- Payload as merged and the halfword behind it its sum: the page is intact (R143, R182). -/
theorem HoldsMerged.holdsNew (h : HoldsMerged m a (payloadSize m.cfg) s) (hs : s.cfg = m.cfg) (ht : t.cfg = m.cfg)
    (hb : ∀ o < payloadSize m.cfg, t.pageByte (otherPage a) o = s.pageByte (otherPage a) o)
    (hstored : t.readU16 (base m.cfg (otherPage a) + payloadSize m.cfg) = s.csumCompute (otherPage a)) :
    HoldsNew m a t where
  payload o ho := by rw [hb o ho, h o (by omega), if_pos ho]
  intact := by
    rw [State.csumIntact_iff, State.csumCompute_congr (ht.trans hs.symm) (by rwa [hs]), ← hstored, State.csumStored,
      checksumAddr, ht]

theorem writeStep6_meets (h : Stage m a d 3 1 (HoldsMerged m a (payloadSize m.cfg)) s)
    (hl : legalConfig m.cfg = true) (hc : c ≤ 3) :
    (writeStep6 (otherPage a) s).Meets (Stage m a d 3 1 (HoldsNew m a)) (LeavesStore m a c d) := by
  have hu := h.underWay
  have hstage : Stage m a d 3 1 (HoldsMerged m a (payloadSize m.cfg)) ((s.setStep .s6).loadAcc (otherPage a)) :=
    ⟨(hu.setStep .s6).loadAcc (otherPage a), h.draws, h.holds⟩
  have herased : s.readU16 (base m.cfg (otherPage a) + payloadSize m.cfg) = 0xFFFF := by
    rw [hu.readU16_other, h.holds _ (by omega), h.holds _ (by omega), if_neg (Nat.lt_irrefl _),
      if_neg (Nat.not_succ_lt_self), composeHalf_erased]
  rw [writeStep6, checksumAddr, hu.kept.cfg]
  refine hstage.program hl hc _ (by omega) herased
    (h.holds.holdsNew hu.kept.cfg hu.kept.cfg (fun o ho => ?_) (State.readU16_programHalf_self _ _ _))
  rw [hstage.underWay.pageByte_programmed, if_neg (by omega), if_neg (by omega)]
  rfl

end

end Sys2Proof.Machine
end

section
/-! SUPPORT. A whole `WRITE` up to a power loss before one of its calls, and the `INIT` after it (spec
42_arbiter_init_read_erase.md R152 to R154; 43_arbiter_write.md R188; 70_reset_and_hazards.md R242). -/

namespace Sys2Proof.Machine

/-! ### The store is what flash and configuration say -/

section
variable {m s t : State} {p a : Page} {i n c : Nat} {d : Draw}

/-- Flash, configuration and inputs are the same: what a power loss and a completion keep. -/
structure SameStore (s t : State) : Prop where
  cfg : t.cfg = s.cfg
  flash : t.flash = s.flash
  inputs : t.inputs = s.inputs

theorem SameStore.trans {u : State} (h : SameStore s t) (h' : SameStore t u) : SameStore s u :=
  ⟨h'.cfg.trans h.cfg, h'.flash.trans h.flash, h'.inputs.trans h.inputs⟩

theorem State.loadSreg_sameStore (s : State) (p : Page) : SameStore s (s.loadSreg p) :=
  ⟨s.setSreg_cfg _, s.setSreg_flash _, s.setSreg_inputs _⟩

theorem State.designate_sameStore (s : State) (c : Page) : SameStore s (s.designate c) := ⟨rfl, rfl, rfl⟩

theorem SameStore.pageByte (h : SameStore s t) (p : Page) (o : Nat) : t.pageByte p o = s.pageByte p o := by
  rw [State.pageByte, State.pageByte, h.cfg, h.flash]

theorem SameStore.pageState (h : SameStore s t) (p : Page) : t.pageState p = s.pageState p := by
  rw [State.pageState, State.pageState, State.stateWord_congr p h.cfg h.flash]

theorem SameStore.csumIntact (h : SameStore s t) (p : Page) : t.csumIntact p = s.csumIntact p :=
  State.csumIntact_congr h.cfg fun o _ => h.pageByte p o

theorem SameStore.zeroFields (h : SameStore s t) (hz : s.zeroFields p n) : t.zeroFields p n := by
  intro k hk
  rw [State.readU16_eq, h.cfg, h.flash, ← State.readU16_eq, hz k hk]

theorem OldStands.of_sameStore (hs : OldStands m a i s) (h : SameStore s t) : OldStands m a i t where
  cfg := h.cfg.trans hs.cfg
  inputs := h.inputs.trans hs.inputs
  old o ho := (h.pageByte a o).trans (hs.old o ho)
  fields := h.zeroFields hs.fields
  other := by rw [h.pageState]; exact hs.other

theorem NewStands.of_sameStore (hs : NewStands m a s) (h : SameStore s t) : NewStands m a t where
  cfg := h.cfg.trans hs.cfg
  inputs := h.inputs.trans hs.inputs
  new :=
    { payload := fun o ho => (h.pageByte _ o).trans (hs.new.payload o ho)
      intact := (h.csumIntact _).trans hs.new.intact }
  valid := (h.pageState _).trans hs.valid
  retired := by rw [h.pageState]; exact hs.retired

/-! ### Steps 1 and 2 -/

/-- The other page of `a` erased, the rest of the store as in `m`: what step 1 leaves (R176). -/
structure OtherErased (m : State) (a : Page) (c : Nat) (s : State) : Prop where
  old : ∀ o < payloadSize m.cfg + 2, s.pageByte a o = m.pageByte a o
  fields : s.zeroFields a c
  erased : ∀ o < m.cfg.pageSize, s.pageByte (otherPage a) o = 0xFF

theorem OtherErased.of_sameStore (h : SameStore (m.clearPage (base m.cfg (otherPage a))) s)
    (hl : legalConfig m.cfg = true) (hz : m.zeroFields a c) : OtherErased m a c s := by
  have hsize := payloadSize_add m.cfg hl
  have hread {b : Nat} (hb : inPage m.cfg a b) :
      (m.clearPage (base m.cfg (otherPage a))).flash.read b = m.flash.read b :=
    m.read_clearPage_other _ fun hb' => not_inPage_both m.cfg hl a b hb hb'
  refine ⟨fun o ho => ?_, ?_, fun o ho => ?_⟩
  · exact (h.pageByte a o).trans (hread ⟨Nat.le_add_right _ _, Nat.add_lt_add_left (by omega) _⟩)
  · exact h.zeroFields (State.zeroFields_congr hl rfl (fun b => hread) hz)
  · exact (h.pageByte _ o).trans (m.pageByte_clearPage _ ho)

theorem OtherErased.pageState (h : OtherErased m a c s) (hl : legalConfig m.cfg = true) (hc : s.cfg = m.cfg) :
    s.pageState (otherPage a) = .erased :=
  State.pageState_of_erased (by rw [hc]; exact hl) (by rw [hc]; exact h.erased)

theorem writeStep1_meets (hz : m.zeroFields a c) (hc : c ≤ 3) (hd : m.cutAhead d) :
    (writeStep1 (otherPage a) m).Meets (fun t => t = m.afterStep1 (otherPage a) ∧ t.cutAhead d)
      (LeavesStore m a c d) := by
  rcases State.cutAhead_cases hd with ⟨hk, hd'⟩ | ⟨hk, hd'⟩
  · rw [writeStep1_of_doneOk _ hk]
    exact ⟨rfl, hd'⟩
  · rw [writeStep1, erasePage_of_cutBefore _ (s := m.setStep .s1) hk]
    exact ⟨hd', .inl ⟨c, le_rfl, hc, rfl, rfl, fun _ _ => rfl, hz, .inr (.inr ⟨hk, rfl⟩)⟩⟩

theorem writeStep2_meets (hl : legalConfig m.cfg = true) (hz : m.zeroFields a c) (hc : c ≤ 3)
    (hd : (m.afterStep1 (otherPage a)).cutAhead d) :
    (writeStep2 (m.afterStep1 (otherPage a))).Meets (fun t => t = m.beforeMark (otherPage a) ∧ t.cutAhead d)
      (LeavesStore m a c d) := by
  rcases State.cutAhead_cases hd with ⟨hk, hd'⟩ | ⟨hk, hd'⟩
  · rw [writeStep2_of_doneOk hk, State.afterStep2_afterStep1]
    exact ⟨rfl, by rw [← State.afterStep2_afterStep1]; exact hd'⟩
  · have herased : OtherErased m a c ((m.afterStep1 (otherPage a)).setStep .s2).popDraw :=
      .of_sameStore ⟨rfl, rfl, rfl⟩ hl hz
    rw [writeStep2, unlockFlash_of_cutBefore (s := (m.afterStep1 (otherPage a)).setStep .s2) hk]
    exact ⟨hd', .inl ⟨c, le_rfl, hc, rfl, rfl, herased.old, herased.fields, .inl (herased.pageState hl rfl)⟩⟩

/-- Step 3 begins with the other page erased. -/
theorem beforeMark_stage (hl : legalConfig m.cfg = true) (hz : m.zeroFields a c)
    (hd : (m.beforeMark (otherPage a)).cutAhead d) :
    Stage m a d c 0 (HoldsMerged m a 0) (m.beforeMark (otherPage a)) := by
  have hsize := payloadSize_add m.cfg hl
  have herased : OtherErased m a c (m.beforeMark (otherPage a)) := .of_sameStore ⟨rfl, rfl, rfl⟩ hl hz
  refine ⟨⟨⟨rfl, rfl, rfl, rfl, rfl, rfl, rfl, rfl, rfl⟩, rfl, herased.old, herased.fields, ?_⟩, hd, fun o ho => ?_⟩
  · exact (State.pageState_eq_iff_zeroFields _ _ (t := .erased) (by decide)).mp (herased.pageState hl rfl)
  · rw [herased.erased o (by omega), if_neg (Nat.not_lt_zero o)]

/-! ### The ten steps -/

/-- A `WRITE` from a page with at most three zero fields, its calls succeeding up to a power loss before one: it is done
and the new store stands, or the old or the new one does where power is lost (R188). -/
theorem writeSteps_meets (hl : legalConfig m.cfg = true) (hz : m.zeroFields a c) (hc : c ≤ 3) (hd : m.cutAhead d) :
    (writeSteps a (otherPage a) m).Meets (NewStands m a) (LeavesStore m a c d) := by
  have hQ := HoldsMerged.ofOtherBytes m a 0
  refine (writeStep1_meets hz hc hd).andThen ?_
  rintro _ ⟨rfl, hd1⟩
  refine (writeStep2_meets hl hz hc hd1).andThen ?_
  rintro _ ⟨rfl, hd2⟩
  exact (writeStep3_meets (beforeMark_stage hl hz hd2) hl hQ hc).andThen fun _ h3 =>
    (writeStep4_meets h3 hl hQ hc).andThen fun _ h4 =>
    (writeStep5_meets h4 hl hc).andThen fun _ h5 =>
    (writeStep6_meets h5 hl hc).andThen fun _ h6 =>
    (writeStep7_meets h6 hl hc).andThen fun _ h7 =>
    (writeStep8_meets h7 hl).andThen fun _ h8 => h8.of_sameStore ⟨rfl, rfl, rfl⟩

end

/-- The state such a `WRITE` leaves is ready for the next `INIT`. -/
theorem exec_write_of_cutAhead {s : State} {a : Page} {addr len c : Nat} {data : List Byte} {d : Draw}
    (h : WriteAllowed s a addr len data) (hz : s.zeroFields a c) (hc : c ≤ 3) (hd : s.cutAhead d) :
    ∃ t, exec (.write addr len data) s = .next t ∧ t.ready ∧
      ((t.nextDraw = d ∧ ∃ i, c ≤ i ∧ i ≤ 3 ∧ OldStands (s.beginWrite addr len data) a i t) ∨
        NewStands (s.beginWrite addr len data) a t) := by
  have hl := h.ready.1
  have ready {t : State} (hcfg : t.cfg = s.cfg) (hb : t.busy = false) (hin : t.inputs = s.inputs) : t.ready :=
    ⟨by rw [hcfg]; exact hl, hb, (State.resetInside_congr hin).trans h.ready.2.2⟩
  have hsteps := writeSteps_meets (m := s.beginWrite addr len data) hl hz hc hd
  rw [exec_write_of_allowed h]
  refine ⟨_, rfl, ?_⟩
  revert hsteps
  cases writeSteps a (otherPage a) (s.beginWrite addr len data) with
  | done u t =>
    intro hnew
    rw [show (Res.done u t).settle = t.complete .ok from
      State.endIn_of_none t _ ((State.resetInside_congr hnew.inputs).trans h.ready.2.2)]
    exact ⟨ready hnew.cfg rfl hnew.inputs, .inr (hnew.of_sameStore ⟨rfl, rfl, rfl⟩)⟩
  | powerLost t =>
    rintro ⟨hdraw, ⟨i, hlo, hhi, hold⟩ | hnew⟩
    · exact ⟨ready hold.cfg rfl hold.inputs, .inl ⟨hdraw, i, hlo, hhi, hold.of_sameStore ⟨rfl, rfl, rfl⟩⟩⟩
    · exact ⟨ready hnew.cfg rfl hnew.inputs, .inr (hnew.of_sameStore ⟨rfl, rfl, rfl⟩)⟩
  | raised | hung => exact False.elim

/-- The merged byte is the one the statements name: the data are the `LEN` bytes of the frame (R99, R181). -/
theorem State.merged_beginWrite (s : State) (a : Page) (addr : Nat) (data : List Byte) (o : Nat) :
    (s.beginWrite addr data.length data).merged a o = s.newByte a addr data o := by
  refine if_ctx_congr Iff.rfl (fun h => ?_) fun _ => rfl
  exact byteAt_of_lt data (o - addr) 0 (Nat.sub_lt_left_of_lt_add h.1 h.2)

/-! ### The next `INIT` -/

section
variable {m t : State} {a c : Page} {i : Nat}

/-- VALID wins over any page that is not (R152). -/
theorem selectPage_of_valid (hv : t.pageState c = .valid) (ho : t.pageState (otherPage c) ≠ .valid) :
    selectPage (t.pageState .p1) (t.pageState .p2) = some c := by
  cases c with
  | p1 => rw [hv]; rfl
  | p2 =>
    have h1 : t.pageState .p1 ≠ .valid := ho
    rw [hv, selectPage, if_neg h1, if_pos rfl]

/-- COPY wins over any page that is neither VALID nor COPY (R152). -/
theorem selectPage_of_copy (hcopy : t.pageState c = .copy) (ho : t.pageState (otherPage c) ≠ .valid)
    (ho' : t.pageState (otherPage c) ≠ .copy) : selectPage (t.pageState .p1) (t.pageState .p2) = some c := by
  cases c with
  | p1 =>
    have h2 : t.pageState .p2 ≠ .valid := ho
    rw [hcopy, selectPage, if_neg (by decide), if_neg h2, if_pos rfl]
  | p2 =>
    have h1 : t.pageState .p1 ≠ .valid := ho
    have h1' : t.pageState .p1 ≠ .copy := ho'
    rw [hcopy, selectPage, if_neg h1, if_neg (by decide), if_neg h1', if_pos rfl]

/-- The integrity check ends `INIT` with what it found and touches no flash (R153). -/
theorem checkChosen_settle (c : Page) {s : State} (h : s.resetInside = false) :
    SameStore s (checkChosen c s).settle ∧ (checkChosen c s).settle.active = s.active ∧
      (checkChosen c s).settle.inactive = s.inactive ∧
      (checkChosen c s).settle.status = if s.csumIntact c then .ok else .error .checksumMismatch := by
  have hin (v : Half) : (s.setAcc v).resetInside = false := (State.resetInside_congr (s.setAcc_inputs v)).trans h
  rw [checkChosen, State.loadAcc]
  generalize s.csumCompute c = v
  split
  · rw [Res.settle_done, State.endIn_of_none _ _ (hin v)]
    exact ⟨⟨rfl, rfl, rfl⟩, rfl, rfl, rfl⟩
  · rw [Res.settle_raised, State.endIn_of_none _ _ (hin v), State.abort_eq]
    exact ⟨⟨rfl, rfl, rfl⟩, rfl, rfl, rfl⟩

/-- What `INIT` does with the page it chooses: it designates it, says whether it is intact, and touches no flash
(R153). -/
theorem exec_init_of_chosen (ht : t.ready) (hsel : selectPage (t.pageState .p1) (t.pageState .p2) = some c) :
    ∃ u, exec .init t = .next u ∧ u.activeIs c ∧ (∀ p o, u.pageByte p o = t.pageByte p o) ∧
      u.status = if t.csumIntact c then .ok else .error .checksumMismatch := by
  have haccepted : SameStore t (t.accept 0x01) := ⟨rfl, rfl, rfl⟩
  have hloaded : SameStore t ((((t.accept 0x01).loadSreg .p1).loadSreg .p2).designate c) :=
    ((haccepted.trans (State.loadSreg_sameStore _ .p1)).trans (State.loadSreg_sameStore _ .p2)).trans
      (State.designate_sameStore _ c)
  obtain ⟨hsame, hactive, hinactive, hstatus⟩ :=
    checkChosen_settle c ((State.resetInside_congr hloaded.inputs).trans ht.2.2)
  rw [hloaded.csumIntact] at hstatus
  have hexec := exec_init_of_ready ht
  rw [initBody_of_some (t.accept 0x01) c hsel] at hexec
  exact ⟨_, hexec, ⟨hactive, hinactive⟩, fun p o => (hsame.pageByte p o).trans (hloaded.pageByte p o), hstatus⟩

/-- Where neither page is VALID or COPY, no page is chosen (R154). -/
theorem selectPage_of_neither (hv : t.pageState c ≠ .valid) (hc : t.pageState c ≠ .copy)
    (hv' : t.pageState (otherPage c) ≠ .valid) (hc' : t.pageState (otherPage c) ≠ .copy) :
    selectPage (t.pageState .p1) (t.pageState .p2) = none := by
  cases c
  · exact selectPage_eq_none hv hv' hc hc'
  · exact selectPage_eq_none hv' hv hc' hc

/-- Where the new store stands, the next `INIT` succeeds and shows it. -/
theorem NewStands.exec_init (h : NewStands m a t) (ht : t.ready) :
    ∃ u, exec .init t = .next u ∧ u.status = .ok ∧ u.activeIs (otherPage a) ∧
      ∀ o < payloadSize m.cfg, u.pageByte (otherPage a) o = m.merged a o := by
  obtain ⟨u, hu, hactive, hbytes, hstatus⟩ :=
    exec_init_of_chosen ht (selectPage_of_valid h.valid (by rw [otherPage_otherPage]; exact h.retired))
  rw [h.new.intact] at hstatus
  exact ⟨u, hu, hstatus, hactive, fun o ho => (hbytes _ o).trans (h.new.payload o ho)⟩

/-- A power loss before step 1 leaves the other page as it was, a later one leaves it neither VALID nor COPY. -/
theorem OldStands.other_ne (h : OldStands m a i t) {x : PageState} (hx : x ≠ .erased) (hx' : x ≠ .write)
    (hm : m.nextDraw.kind = .cutBefore → m.pageState (otherPage a) ≠ x) : t.pageState (otherPage a) ≠ x := by
  rcases h.other with ho | ho | ⟨hk, ho⟩ <;> rw [ho]
  · exact hx.symm
  · exact hx'.symm
  · exact hm hk

/-- Where the old store stands and its page is VALID or COPY, the next `INIT` shows the old payload and says whether
that was intact. -/
theorem OldStands.exec_init (h : OldStands m a i t) (ht : t.ready)
    (ha : t.pageState a = .valid ∨ t.pageState a = .copy) (hv : t.pageState (otherPage a) ≠ .valid)
    (hc : t.pageState (otherPage a) ≠ .copy) :
    ∃ u, exec .init t = .next u ∧ u.activeIs a ∧ (∀ o < payloadSize m.cfg, u.pageByte a o = m.pageByte a o) ∧
      u.status = if m.csumIntact a then .ok else .error .checksumMismatch := by
  obtain ⟨u, hu, hactive, hbytes, hstatus⟩ :=
    exec_init_of_chosen ht (ha.elim (selectPage_of_valid · hv) (selectPage_of_copy · hv hc))
  rw [State.csumIntact_congr h.cfg h.old] at hstatus
  exact ⟨u, hu, hactive, fun o ho => (hbytes a o).trans (h.old o (by omega)), hstatus⟩

/-- Where the old store stands on a page whose payload is erased and which is not intact, the next `INIT` shows an
erased payload: that page's, or page 1's after its own erase (R154, R253). -/
theorem OldStands.exec_init_of_erased (h : OldStands m a i t) (ht : t.ready) (hk : t.nextDraw.kind = .doneOk)
    (herased : ∀ o < payloadSize m.cfg, m.pageByte a o = 0xFF) (hintact : m.csumIntact a = false)
    (hv : t.pageState (otherPage a) ≠ .valid) (hc : t.pageState (otherPage a) ≠ .copy) :
    ∃ u p, exec .init t = .next u ∧ u.activeIs p ∧ (∀ o < payloadSize m.cfg, u.pageByte p o = 0xFF) ∧
      (u.status = .ok ∨ u.status = .error .checksumMismatch) ∧
      (t.pageState a = .copy → p = a ∧ u.status = .error .checksumMismatch) := by
  by_cases ha : t.pageState a = .valid ∨ t.pageState a = .copy
  · obtain ⟨u, hu, hactive, hbytes, hstatus⟩ := h.exec_init ht ha hv hc
    rw [hintact] at hstatus
    exact ⟨u, a, hu, hactive, fun o ho => (hbytes o ho).trans (herased o ho), .inr hstatus, fun _ => ⟨rfl, hstatus⟩⟩
  · obtain ⟨hav, hac⟩ := not_or.mp ha
    have hsize : payloadSize m.cfg ≤ t.cfg.pageSize := by
      rw [h.cfg]; exact Nat.sub_le _ _
    exact ⟨t.openedFresh, .p1, exec_init_of_fresh ht (selectPage_of_neither hav hac hv hc) hk, ⟨rfl, rfl⟩,
      fun o ho => t.pageByte_clearPage .p1 (ho.trans_le hsize), .inl rfl, fun hcopy => absurd hcopy hac⟩

end

end Sys2Proof.Machine
end

section
/-! The statement of spec 43_arbiter_write.md and 70_reset_and_hazards.md about a power loss between two calls of a
`WRITE` that starts from a COPY or an erased page. -/

namespace Sys2Proof.Proofs

open Sys2Proof Sys2Proof.Machine

/-- Settles O50: wherever power is lost, either the old page still has payload and checksum, or the other page is
committed; and an erased page is never intact. -/
theorem crashFromErasedOrCopyShowsOldOrNew : Obligations.CrashFromErasedOrCopyShowsOldOrNew := by
  intro s a addr len n data h hother hq hk
  obtain rfl := h.dataLength
  have hcut : s.cutAhead (s.drawAt (n + 1)) := ⟨n, hq, hk, rfl⟩
  have hfirst (h0 : s.nextDraw.kind = .cutBefore) :
      s.pageState (otherPage a) ≠ .valid ∧ s.pageState (otherPage a) ≠ .copy := by
    refine hother (Nat.eq_zero_of_not_pos fun hpos => ?_)
    rw [State.nextDraw_eq_drawAt, hq 0 hpos] at h0
    cases h0
  refine ⟨fun hcopy hintact => ?_, fun herased hok => ?_⟩
  · obtain ⟨t, ht, hready, ⟨_, i, hlo, hhi, hold⟩ | hnew⟩ :=
      exec_write_of_cutAhead h ((s.pageState_eq_iff_zeroFields a (by decide)).mp hcopy) le_rfl hcut
    · obtain rfl := Nat.le_antisymm hhi hlo
      have hstill : t.pageState a = .copy := (t.pageState_eq_iff_zeroFields a (by decide)).mpr hold.fields
      obtain ⟨u, hu, hactive, hbytes, hstatus⟩ := hold.exec_init hready (.inr hstill)
        (hold.other_ne (by decide) (by decide) fun h0 => (hfirst h0).1)
        (hold.other_ne (by decide) (by decide) fun h0 => (hfirst h0).2)
      exact ⟨t, u, ht, hu, hstatus.trans (if_pos hintact), .inl ⟨hactive, hbytes⟩⟩
    · obtain ⟨u, hu, hstatus, hactive, hbytes⟩ := hnew.exec_init hready
      exact ⟨t, u, ht, hu, hstatus, .inr ⟨hactive, fun o ho => (hbytes o ho).trans (s.merged_beginWrite a addr data o)⟩⟩
  · have hlegal := h.ready.1
    have hsize := payloadSize_add s.cfg hlegal
    obtain ⟨_, _, hintact⟩ := erasedPageIsNeverIntact s a hlegal herased
    obtain ⟨t, ht, hready, ⟨hdraw, i, _, _, hold⟩ | hnew⟩ := exec_write_of_cutAhead h
      ((s.pageState_eq_iff_zeroFields a (by decide)).mp (State.pageState_of_erased hlegal herased)) (Nat.zero_le 3) hcut
    · obtain ⟨u, p, hu, hactive, hbytes, hstatus, hcopied⟩ := hold.exec_init_of_erased hready (by rw [hdraw]; exact hok)
        (fun o ho => herased o (Nat.lt_of_lt_of_le ho (Nat.sub_le _ _))) hintact
        (hold.other_ne (by decide) (by decide) fun h0 => (hfirst h0).1)
        (hold.other_ne (by decide) (by decide) fun h0 => (hfirst h0).2)
      exact ⟨t, u, p, ht, hu, hactive, .inl hbytes, hstatus, fun hc _ => hcopied hc⟩
    · obtain ⟨u, hu, hstatus, hactive, hbytes⟩ := hnew.exec_init hready
      exact ⟨t, u, otherPage a, ht, hu, hactive,
        .inr ⟨rfl, fun o ho => (hbytes o ho).trans (s.merged_beginWrite a addr data o)⟩, .inl hstatus,
        fun _ hne => absurd hnew.valid hne⟩

end Sys2Proof.Proofs
end

section
/-! SUPPORT. `INIT`, `READ` and `MASS_ERASE` as wholes: the state each leaves, by what it finds in flash and by the
draws of its erases (spec 42_arbiter_init_read_erase.md R151 to R165). -/

namespace Sys2Proof.Machine

/-! ### INIT -/

section
variable {s t : State} {c : Page}

theorem SameStore.csumCompute (h : SameStore s t) (p : Page) : t.csumCompute p = s.csumCompute p :=
  State.csumCompute_congr h.cfg fun o _ => h.pageByte p o

theorem SameStore.csumStored (h : SameStore s t) (p : Page) : t.csumStored p = s.csumStored p :=
  State.csumStored_congr h.cfg (h.pageByte p _) (h.pageByte p _)

theorem State.ready.of_sameStore (hs : s.ready) (h : SameStore s t) (hb : t.busy = false) : t.ready :=
  ⟨by rw [h.cfg]; exact hs.1, hb, (State.resetInside_congr h.inputs).trans hs.2.2⟩

/-- The state a page decodes to is said by the bytes of that page (R52, R124). -/
theorem State.pageState_congr {p : Page} (hlegal : legalConfig s.cfg = true) (hc : t.cfg = s.cfg)
    (hf : ∀ b, inPage s.cfg p b → t.flash.read b = s.flash.read b) : t.pageState p = s.pageState p := by
  refine PageState.eq_of_canonical_iff fun x hx => ?_
  rw [t.pageState_eq_iff_zeroFields p hx, s.pageState_eq_iff_zeroFields p hx]
  refine ⟨State.zeroFields_congr (by rw [hc]; exact hlegal) hc.symm fun b hb => ?_,
    State.zeroFields_congr hlegal hc hf⟩
  rw [hc] at hb
  exact (hf b hb).symm

/-- The four ways in which a page is chosen exclude each other (R152, R156). -/
theorem selectPage_eq_some {s1 s2 : PageState}
    (h : (s1 = .valid ∧ c = .p1) ∨ (s1 ≠ .valid ∧ s2 = .valid ∧ c = .p2) ∨
      (s1 = .copy ∧ s2 ≠ .valid ∧ c = .p1) ∨ (s1 ≠ .valid ∧ s1 ≠ .copy ∧ s2 = .copy ∧ c = .p2)) :
    selectPage s1 s2 = some c := by
  rcases h with ⟨h1, rfl⟩ | ⟨h1, h2, rfl⟩ | ⟨h1, h2, rfl⟩ | ⟨h1, h1', h2, rfl⟩ <;> simp [selectPage, *]

/-- No page is chosen exactly where none is VALID or COPY (R154). -/
theorem selectPage_eq_none_iff {s1 s2 : PageState} :
    selectPage s1 s2 = none ↔ s1 ≠ .valid ∧ s2 ≠ .valid ∧ s1 ≠ .copy ∧ s2 ≠ .copy := by
  refine ⟨fun h => ?_, fun ⟨h1, h2, h3, h4⟩ => selectPage_eq_none h1 h2 h3 h4⟩
  unfold selectPage at h
  split_ifs at h with h1 h2 h3 h4
  exact ⟨h1, h2, h3, h4⟩

/-- Where no page is chosen, none is after the erase of page 1 either (R154, R157). -/
theorem State.selectPage_openedFresh (s : State) (hlegal : legalConfig s.cfg = true)
    (h : selectPage (s.pageState .p1) (s.pageState .p2) = none) :
    selectPage (s.openedFresh.pageState .p1) (s.openedFresh.pageState .p2) = none := by
  obtain ⟨_, hvalid, _, hcopy⟩ := selectPage_eq_none_iff.mp h
  have hfirst : s.openedFresh.pageState .p1 = .erased :=
    State.pageState_of_erased hlegal fun _ => s.pageByte_clearPage .p1
  have hsecond : s.openedFresh.pageState .p2 = s.pageState .p2 :=
    State.pageState_congr hlegal rfl fun b hb =>
      s.read_clearPage_other .p1 fun hb' => not_inPage_both s.cfg hlegal .p1 b hb' hb
  rw [hfirst, hsecond]
  exact selectPage_eq_none (by decide) hvalid (by decide) hcopy

/-- The state `INIT` leaves where it chooses page `c` (R153). -/
def State.openedAt (s : State) (c : Page) : State :=
  { s with
    cmd := 0x01
    active := designatorOf c
    inactive := designatorOf (otherPage c)
    sreg := s.stateWord .p2
    acc := s.csumCompute c
    status := if s.csumStored c = s.csumCompute c then .ok else .error .checksumMismatch
    step := .idle
    busy := false }

theorem State.openedAt_sameStore (s : State) (c : Page) : SameStore s (s.openedAt c) := ⟨rfl, rfl, rfl⟩

/-- `INIT` accepted, both state words read: `SREG` holds the second one (R151, R124). -/
def State.wordsRead (s : State) : State := { s.accept 0x01 with sreg := s.stateWord .p2 }

theorem State.wordsRead_sameStore (s : State) : SameStore s s.wordsRead := ⟨rfl, rfl, rfl⟩

theorem State.loadSreg_accept (s : State) : ((s.accept 0x01).loadSreg .p1).loadSreg .p2 = s.wordsRead := by
  have hword : (s.accept 0x01).stateWord .p2 = s.stateWord .p2 := State.stateWord_congr .p2 rfl rfl
  rw [State.loadSreg_loadSreg, hword, State.wordsRead]

/-- `INIT` that chooses page `c` (R153). -/
theorem exec_init_of_select (hs : s.ready) (h : selectPage (s.pageState .p1) (s.pageState .p2) = some c) :
    exec .init s = .next (s.openedAt c) := by
  have hsame : SameStore s (s.wordsRead.designate c) := s.wordsRead_sameStore.trans (State.designate_sameStore _ c)
  have hin (v : Half) : ((s.wordsRead.designate c).setAcc v).resetInside = false :=
    (State.resetInside_congr hsame.inputs).trans hs.2.2
  rw [exec_init_of_ready hs, initBody_of_some (s.accept 0x01) c h, State.loadSreg_accept, checkChosen,
    hsame.csumIntact, State.loadAcc, hsame.csumCompute, State.csumIntact, State.openedAt]
  generalize s.csumCompute c = v
  simp only [decide_eq_true_eq]
  split
  · rw [Res.settle_done, State.endIn_of_none _ _ (hin v)]; rfl
  · rw [Res.settle_raised, State.endIn_of_none _ _ (hin v), State.abort_eq]; rfl

/-- `INIT` on a fresh store comes down to the erase of page 1 (R154). -/
theorem exec_init_of_none (hs : s.ready) (h : selectPage (s.pageState .p1) (s.pageState .p2) = none) :
    exec .init s = .next (freshStore s.wordsRead).settle := by
  rw [exec_init_of_ready hs, initBody_of_none (s.accept 0x01) h, State.loadSreg_accept]

/-- The state `INIT` leaves on a fresh store whose erase fails with `k` (R155). -/
def State.freshFailed (s : State) (k : ErrorKind) : State :=
  { s.tearPage (base s.cfg .p1) with
    cmd := 0x01
    sreg := s.stateWord .p2
    status := .error k
    step := .idle
    busy := false }

/-- Where the erase of a fresh store comes to `k` without power loss or a hang, `INIT` ends with `k` (R155). -/
theorem exec_init_of_fresh_raised {k : ErrorKind} (hs : s.ready)
    (h : selectPage (s.pageState .p1) (s.pageState .p2) = none)
    (he : (erasePage (base s.cfg .p1) s.wordsRead).orProgramError = .raised k (s.wordsRead.tearPage (base s.cfg .p1))) :
    exec .init s = .next (s.freshFailed k) := by
  have hin : (s.wordsRead.tearPage (base s.cfg .p1)).resetInside = false := hs.2.2
  have hbase : base s.wordsRead.cfg .p1 = base s.cfg .p1 := rfl
  rw [exec_init_of_none hs h, freshStore, hbase, he, Res.andThen_raised, Res.settle_raised,
    State.endIn_of_none _ _ hin, State.abort_eq]
  rfl

end

/-! ### READ -/

/-- Every byte of the range is read from the page at its offset (R103, R158). -/
theorem State.payloadBytes_eq (s : State) (p : Page) (addr len : Nat) :
    s.payloadBytes p addr len = (List.range len).map fun i => s.pageByte p (addr + i) :=
  List.map_congr_left fun i _ => congrArg s.flash.read (Nat.add_assoc _ addr i)

section
variable {s : State} {addr len : Nat}

/-- The state in which `READ` reads: accepted, its operands latched (R100); `STEP` is not defined (R27). -/
def State.beginRead (s : State) (addr len : Nat) : State :=
  { s with cmd := 0x02, busy := true, step := Config.freeStep s.drawn, addr := addr, len := len }

theorem exec_read_of_ready (hs : s.ready) (addr len : Nat) :
    exec (.read addr len) s = .next (readBody (s.beginRead addr len)).settle :=
  (hostCommand_eq_next 0x02 (fun s => s.setOperands addr len) readBody s _).mpr ⟨hs.2.1, hs.1, rfl⟩

/-- `READ` in range of the active page `p` (R158). -/
theorem exec_read_of_inRange {p : Page} (hs : s.ready) (hp : s.active = designatorOf p)
    (h : addr + len < payloadSize s.cfg) :
    exec (.read addr len) s =
      .next { s with
              cmd := 0x02
              addr := addr
              len := len
              rdata := (List.range len).map fun i => s.pageByte p (addr + i)
              status := .ok
              step := .idle
              busy := false } := by
  have hpage : pageOf (s.beginRead addr len).active = some p := (pageOf_eq_some _ _).mpr hp
  have hbody : readBody (s.beginRead addr len) =
      .done () ((s.beginRead addr len).setRdata (s.payloadBytes p addr len)) := by
    rw [readBody, hpage]
    exact if_pos h
  have hin (l : List Byte) : ((s.beginRead addr len).setRdata l).resetInside = false := hs.2.2
  rw [exec_read_of_ready hs, hbody, Res.settle_done, State.endIn_of_none _ _ (hin _), s.payloadBytes_eq]
  rfl

/-- `READ` without an active page or out of its range (R158). -/
theorem exec_read_of_outOfRange (hs : s.ready) (h : s.active = .none ∨ payloadSize s.cfg ≤ addr + len) :
    exec (.read addr len) s =
      .next { s with
              cmd := 0x02
              addr := addr
              len := len
              status := .error .outOfRange
              step := .idle
              busy := false } := by
  have hbody : readBody (s.beginRead addr len) = .raised .outOfRange (s.beginRead addr len) := by
    rw [readBody]
    split
    · rfl
    next p hp =>
      rcases h with h | h
      · exact absurd (((pageOf_eq_some _ _).mp hp).symm.trans h) (designatorOf_ne_none p)
      · exact if_neg (Nat.not_lt.mpr h)
  have hin : (s.beginRead addr len).resetInside = false := hs.2.2
  rw [exec_read_of_ready hs, hbody, Res.settle_raised, State.endIn_of_none _ _ hin, State.abort_eq]
  rfl

end

/-! ### MASS_ERASE -/

/-- What the draw of an erase that returns makes of its captured result (R69, R162). -/
def eraseResult : DrawKind → Option ErrorKind
  | .doneOk => none
  | .doneErr => some .hardwareProgramError
  | .noCompletion => some .timeout
  | .cutBefore => none
  | .cutDuring => none

theorem captureErase_result {a : Nat} {s t : State} {o : Option ErrorKind}
    (h : captureErase (erasePage a s) = .done o t) : o = eraseResult (s.drawAt 0).kind := by
  rw [← State.nextDraw_eq_drawAt]
  rcases erasePage_cases a s with ⟨hk, he⟩ | ⟨hk, he⟩ | ⟨hk, he⟩ | ⟨hk, he⟩ | ⟨hk, he⟩ <;> rw [he] at h <;> rw [hk]
  · cases h; rfl
  · cases h; rfl
  · revert h
    unfold noCompletion
    split <;> intro h <;> cases h
    rfl
  · cases h
  · cases h

/-- Each of the next `n` erases returns: none meets power loss, and none waits without end (R162, R163). -/
def State.erasesReturn (s : State) (n : Nat) : Prop :=
  ∀ k < n, ¬ s.cutAt k ∧ ((s.drawAt k).kind = .noCompletion → s.cfg.waitBudget = .finite)

/-- `MASS_ERASE` whose two erases return: both are made, and each whose draw is `doneOk` leaves its page erased
(R162). -/
theorem massEraseBody_of_erasesReturn {s : State} (hlegal : legalConfig s.cfg = true) (h : s.erasesReturn 2) :
    ∃ t, massEraseBody s = raiseFirst (eraseResult (s.drawAt 0).kind) (eraseResult (s.drawAt 1).kind) t ∧
      ((s.drawAt 0).kind = .doneOk → ∀ o < s.cfg.pageSize, t.pageByte .p1 o = 0xFF) ∧
      ((s.drawAt 1).kind = .doneOk → ∀ o < s.cfg.pageSize, t.pageByte .p2 o = 0xFF) ∧
      (∀ b, ¬ inPage s.cfg .p1 b → ¬ inPage s.cfg .p2 b → t.flash.read b = s.flash.read b) ∧
      t = { s with flash := t.flash, draws := s.draws.drop 2, drawn := s.drawn + 2 } := by
  obtain ⟨hcut0, hw0⟩ := h 0 (by decide)
  obtain ⟨hcut1, hw1⟩ := h 1 (by decide)
  obtain ⟨r1, t, he1, ht, hout1, herased1⟩ := captureErase_returns (base s.cfg .p1) s hcut0 hw0
  have hcfg : t.cfg = s.cfg := by rw [ht]
  have hdraw : t.drawAt 0 = s.drawAt 1 := State.drawAt_of_drawn 1 0 (by rw [ht]) (by rw [ht, List.drop_one])
  obtain ⟨r2, u, he2, hu, hout2, herased2⟩ := captureErase_returns (base s.cfg .p2) t
    (by rwa [State.cutAt, hdraw]) (by rwa [hdraw, hcfg])
  have hucfg : u.cfg = s.cfg := by rw [hu, hcfg]
  rw [hcfg] at hout2 herased2
  obtain ⟨hout, hkept⟩ := sameOutside_both_pages hlegal hout1 hout2
  refine ⟨u, ?_, fun hk o ho => ?_, fun hk o ho => ?_, hout, ?_⟩
  · rw [massEraseBody, he1, Res.andThen_done, hcfg, he2, Res.andThen_done, captureErase_result he1,
      captureErase_result he2, hdraw]
  · rw [State.pageByte, hucfg]
    exact (hkept o ho).trans (herased1 hk o ho)
  · rw [State.pageByte, hucfg]
    exact herased2 (by rw [hdraw]; exact hk) o ho
  · have hdrop : s.draws.drop 2 = s.draws.tail.tail := by rw [← List.drop_one, ← List.drop_one, List.drop_drop]
    rw [hu, ht, hdrop]

/-- The status of the two results: page 1's failure wins over page 2's (R162). -/
def firstFailure (r1 r2 : Option ErrorKind) : Status :=
  match r1.or r2 with
  | none => .ok
  | some k => .error k

theorem raiseFirst_settle (r1 r2 : Option ErrorKind) {s : State} (hcmd : s.cmd ≠ 0x03) (h : s.resetInside = false) :
    (raiseFirst r1 r2 s).settle = { s with status := firstFailure r1 r2, step := .idle, busy := false } := by
  have raised (k : ErrorKind) :
      (Res.raised k s).settle = { s with status := .error k, step := .idle, busy := false } := by
    rw [Res.settle_raised, State.endIn_of_none _ _ h, State.abort_eq, if_neg fun hc => hcmd hc.1]
  match r1, r2 with
  | some k, _ => exact raised k
  | none, some k => exact raised k
  | none, none => exact State.endIn_of_none _ _ h

/-- The status as R162 writes it out. -/
theorem firstFailure_eraseResult {d0 d1 : DrawKind} (h0 : ¬ (d0 = .cutBefore ∨ d0 = .cutDuring))
    (h1 : ¬ (d1 = .cutBefore ∨ d1 = .cutDuring)) :
    firstFailure (eraseResult d0) (eraseResult d1) =
      if d0 = .noCompletion ∨ (d0 = .doneOk ∧ d1 = .noCompletion) then .error .timeout
      else if d0 = .doneOk ∧ d1 = .doneOk then .ok
      else .error .hardwareProgramError := by
  revert h0 h1
  cases d0 <;> cases d1 <;> decide

/-- Erases that succeed return. -/
theorem State.quiet.erasesReturn {s : State} {n : Nat} (h : s.quiet n) : s.erasesReturn n := by
  intro k hk
  simp [State.cutAt, h k hk]

end Sys2Proof.Machine
end

section
/-! The statements of spec 42_arbiter_init_read_erase.md: what `INIT`, `READ` and `MASS_ERASE` leave, whatever their
erases come to. -/

namespace Sys2Proof.Proofs

open Sys2Proof Sys2Proof.Machine

/-- Settles O24: the page is chosen by the two page states alone. -/
theorem initDesignatesChosenPage : Obligations.InitDesignatesChosenPage :=
  fun _ _ hs h => exec_init_of_select hs (selectPage_eq_some h)

/-- Settles O26: the erase of page 1 is the only call, and the designation comes after it. -/
theorem initFreshEraseFailureKeepsDesignation : Obligations.InitFreshEraseFailureKeepsDesignation := by
  intro s hs h1 h2 h3 h4
  have hselect := selectPage_eq_none h1 h2 h3 h4
  rw [← State.nextDraw_eq_drawAt]
  have houtside (b : Nat) : ¬ inPage s.cfg .p1 b → (s.tearPage (base s.cfg .p1)).flash.read b = s.flash.read b :=
    s.read_tearPage_other .p1
  by_cases hk : s.nextDraw.kind = .doneErr
  · have herase : erasePage (base s.cfg .p1) s.wordsRead = .done false (s.wordsRead.tearPage (base s.cfg .p1)) :=
      erasePage_of_doneErr _ hk
    have hrun := exec_init_of_fresh_raised hs hselect (by rw [herase, Res.orProgramError_done_false])
    exact ⟨s.freshFailed .hardwareProgramError, houtside, fun _ => ⟨hrun, rfl, rfl, rfl, rfl⟩,
      fun h => by simp [hk] at h⟩
  · refine ⟨s.freshFailed .timeout, houtside, fun h => absurd h hk, fun h hw => ⟨?_, rfl, rfl, rfl, rfl⟩⟩
    have herase : erasePage (base s.cfg .p1) s.wordsRead = .raised .timeout (s.wordsRead.tearPage (base s.cfg .p1)) :=
      (erasePage_of_noCompletion (s := s.wordsRead) _ h).trans (noCompletion_finite _ hw)
    exact exec_init_of_fresh_raised hs hselect (by rw [herase, Res.orProgramError_raised])

/-- Settles O28: a page chosen once is chosen again, flash being as it was, and an erased page 1 is as little VALID or
COPY as before. -/
theorem initTwiceAgrees : Obligations.InitTwiceAgrees := by
  intro s hs hq
  cases h : selectPage (s.pageState .p1) (s.pageState .p2) with
  | some c =>
    have hsame := s.openedAt_sameStore c
    refine ⟨_, _, exec_init_of_select hs h, exec_init_of_select (c := c) (hs.of_sameStore hsame rfl) ?_, rfl, rfl, ?_⟩
    · rw [hsame.pageState, hsame.pageState, h]
    · rw [State.openedAt, hsame.csumStored, hsame.csumCompute]; rfl
  | none =>
    have hdraw : s.nextDraw.kind = .doneOk := by rw [State.nextDraw_eq_drawAt]; exact hq 0 (by decide)
    have hdraw' : s.openedFresh.nextDraw.kind = .doneOk := by
      rw [State.nextDraw_eq_drawAt]
      exact s.quiet_popDraw 1 hq 0 (by decide)
    exact ⟨_, _, exec_init_of_fresh hs h hdraw,
      exec_init_of_fresh ⟨hs.1, rfl, hs.2.2⟩ (s.selectPage_openedFresh hs.1 h) hdraw', rfl, rfl, rfl⟩

/-- Settles O29: both tests come before the first byte is read. -/
theorem readCopiesPayloadOrFails : Obligations.ReadCopiesPayloadOrFails := by
  intro s addr len hs
  refine ⟨fun haddr hlen => ?_, fun p hp h => exec_read_of_inRange hs hp h, exec_read_of_outOfRange hs⟩
  exact decodeHost_readWord [] (by simp [fitsOperand, haddr, hlen])

/-- Settles O33: the second erase is made whatever the first one's result, and the status is the first failure's. -/
theorem massEraseAttemptsBothReportsFirst : Obligations.MassEraseAttemptsBothReportsFirst := by
  intro s hs h
  refine ⟨decodeHost_massErase s.cfg.addrWidth [] rfl, ?_⟩
  obtain ⟨t, hbody, herased1, herased2, hout, ht⟩ := massEraseBody_of_erasesReturn (s := s.accept 0x04) hs.1 h
  have hsettle := raiseFirst_settle (eraseResult (s.drawAt 0).kind) (eraseResult (s.drawAt 1).kind) (s := t)
    (by rw [ht]; exact (by decide : (0x04 : Byte) ≠ 0x03)) (by rw [ht]; exact hs.2.2)
  rw [firstFailure_eraseResult (h 0 (by decide)).1 (h 1 (by decide)).1] at hsettle
  have hrun := exec_massErase_of_ready hs
  rw [hbody] at hrun
  refine ⟨_, hrun.trans (congrArg Host.Outcome.next hsettle), herased1, herased2, hout, ?_⟩
  rw [ht]
  rfl

/-- Settles O32: both erases succeed. -/
theorem massEraseErasesBothPages : Obligations.MassEraseErasesBothPages := by
  intro s hs hq
  have hk0 := hq 0 (by decide)
  have hk1 := hq 1 (by decide)
  obtain ⟨_, t, hrun, herased1, herased2, hout, ht⟩ := massEraseAttemptsBothReportsFirst s hs hq.erasesReturn
  rw [hk0, hk1] at ht
  have herased (p : Page) : ∀ o < s.cfg.pageSize, t.pageByte p o = 0xFF := by
    cases p
    · exact herased1 hk0
    · exact herased2 hk1
  have hstate (p : Page) : t.pageState p = .erased := by
    have hcfg : t.cfg = s.cfg := by rw [ht]
    exact State.pageState_of_erased (by rw [hcfg]; exact hs.1) (by rw [hcfg]; exact herased p)
  exact ⟨t, hrun, herased, hout, hstate .p1, hstate .p2, ht⟩

/-- Settles O35: both pages are erased, so that `INIT` takes the fresh path. -/
theorem massEraseThenInitIsFresh : Obligations.MassEraseThenInitIsFresh := by
  intro s hs hq
  obtain ⟨t, hrun, _, _, h1, h2, ht⟩ := massEraseErasesBothPages s hs fun k hk => hq k (by omega)
  have hsize := payloadSize_add s.cfg hs.1
  have hcfg : t.cfg = s.cfg := by rw [ht]
  have hready : t.ready := by rw [ht]; exact ⟨hs.1, rfl, hs.2.2⟩
  have hdraw : t.nextDraw.kind = .doneOk := by
    rw [State.nextDraw_eq_drawAt, State.drawAt_of_drawn 2 0 (by rw [ht]) (by rw [ht])]
    exact hq 2 (by decide)
  have hinit := exec_init_of_fresh hready (by rw [h1, h2]; rfl) hdraw
  exact ⟨t, _, hrun, hinit, rfl, ⟨rfl, rfl⟩, fun o ho => t.pageByte_clearPage .p1 (by rw [hcfg]; omega)⟩

end Sys2Proof.Proofs
end

section
/-! SUPPORT. A `WRITE` that loses power at one of its first calls: before the erase of step 1, and during the program of
step 3, which can tear the COPY mark (spec 70_reset_and_hazards.md R242, R243, R252). -/

namespace Sys2Proof.Machine

/-! ### A page with one torn field -/

/-- The fields of page `p` before field `i` are zero and those behind it erased; of field `i` nothing is said. -/
def State.zeroFieldsExcept (s : State) (p : Page) (i : Nat) : Prop :=
  ∀ k < 4, k ≠ i → s.readU16 (fieldAddr s.cfg p k) = if k < i then 0x0000 else 0xFFFF

section
variable {s : State} {p : Page} {i : Nat}

/-- Whatever is programmed into the first erased field, the others keep. -/
theorem State.zeroFields.programHalf (h : s.zeroFields p i) (v : Half) :
    (s.programHalf (fieldAddr s.cfg p i) v).zeroFieldsExcept p i := by
  intro k hk hne
  rw [State.programHalf_cfg, State.readU16_programHalf_other _ _ _ _ (by simp only [fieldAddr]; omega), h k hk]

theorem State.zeroFieldsExcept.of_erased (h : s.zeroFieldsExcept p i)
    (hi : s.readU16 (fieldAddr s.cfg p i) = 0xFFFF) : s.zeroFields p i := by
  intro k hk
  by_cases hne : k = i
  · rw [hne, hi, if_neg (Nat.lt_irrefl i)]
  · exact h k hk hne

theorem State.zeroFieldsExcept.of_zero (h : s.zeroFieldsExcept p i)
    (hi : s.readU16 (fieldAddr s.cfg p i) = 0x0000) : s.zeroFields p (i + 1) := by
  intro k hk
  by_cases hne : k = i
  · rw [hne, hi, if_pos (Nat.lt_succ_self i)]
  · have hiff : k < i ↔ k < i + 1 := by omega
    rw [h k hk hne]
    simp only [hiff]

/-- A VALID page whose next field, the one of the COPY mark, is programmed is Corrupt exactly where that field is torn
(R93, R94, R252). -/
theorem State.zeroFieldsExcept.corrupt_iff (h : s.zeroFieldsExcept p 2) :
    s.pageState p = .corrupt ↔
      s.readU16 (fieldAddr s.cfg p 2) ≠ 0x0000 ∧ s.readU16 (fieldAddr s.cfg p 2) ≠ 0xFFFF := by
  refine ⟨fun hc => ⟨fun hz => ?_, fun he => ?_⟩, fun ⟨hz, he⟩ => ?_⟩
  · have hcopy := (s.pageState_eq_iff_zeroFields p (t := .copy) (by decide)).mpr (h.of_zero hz)
    rw [hc] at hcopy
    cases hcopy
  · have hvalid := (s.pageState_eq_iff_zeroFields p (t := .valid) (by decide)).mpr (h.of_erased he)
    rw [hc] at hvalid
    cases hvalid
  · by_contra hc
    have hfield := (s.pageState_eq_iff_zeroFields p hc).mp rfl 2 (by decide)
    split at hfield
    · exact hz hfield
    · exact he hfield

theorem writeU16_of_cutDuring {a : Nat} (v : Half) (hl : s.lock = .unlocked) (he : s.readU16 a = 0xFFFF)
    (hk : s.nextDraw.kind = .cutDuring) : writeU16 a v s = .powerLost (s.popDraw.programHalf a (s.tornHalf v)) := by
  simp [writeU16, hl, he, hk]

/-- Power lost during the first program of SET_STATE leaves a torn field (R126, R243). -/
theorem setPageState_of_cutDuring {target : PageState} (h : s.zeroFields p i) (hi : i < stateNumber target)
    (hl : s.lock = .unlocked) (hk : s.nextDraw.kind = .cutDuring) :
    setPageState p target s = .powerLost (s.popDraw.programHalf (fieldAddr s.cfg p i) (s.tornHalf 0x0000)) := by
  have hle := stateNumber_le target
  have herased : s.readU16 (fieldAddr s.cfg p i) = 0xFFFF := by rw [h i (by omega), if_neg (Nat.lt_irrefl i)]
  rw [setPageState_of_turn (by omega) (h.held hi.le), setField_of_program hi (by rw [herased]; decide),
    writeU16_of_cutDuring _ hl herased hk, Res.orProgramError_powerLost, Res.andThen_powerLost]

/-- What an erased halfword holds after a torn program of `0x0000` is the two bytes its draw names (R62). -/
theorem State.tornHalf_zero {b0 b1 : Byte} (h : s.nextDraw.junk = [b0, b1]) :
    s.tornHalf 0x0000 = composeHalf .be b0 b1 := by
  rw [State.tornHalf, State.junkByte, State.junkByte, h]
  exact BitVec.or_zero

end

/-! ### The steps up to the power loss -/

section
variable {s t : State} {a b : Page} {addr len : Nat} {data : List Byte}

theorem exec_write_of_powerLost (h : WriteAllowed s a addr len data)
    (hr : writeSteps a (otherPage a) (s.beginWrite addr len data) = .powerLost t) :
    exec (.write addr len data) s = .next t.powerCycle := by
  rw [exec_write_of_allowed h, hr, Res.settle_powerLost]

/-- Power lost before the erase of step 1 leaves the store as it was (R242). -/
theorem exec_write_of_cutBefore_erase (h : WriteAllowed s a addr len data) (hk : s.nextDraw.kind = .cutBefore) :
    ∃ t, exec (.write addr len data) s = .next t ∧ t.ready ∧ SameStore s t := by
  have hsteps : writeSteps a (otherPage a) (s.beginWrite addr len data) =
      .powerLost ((s.beginWrite addr len data).setStep .s1).popDraw := by
    rw [writeSteps, writeStep1, erasePage_of_cutBefore _ (s := (s.beginWrite addr len data).setStep .s1) hk,
      Res.orProgramError_powerLost, Res.andThen_powerLost]
  have hsame : SameStore s ((s.beginWrite addr len data).setStep .s1).popDraw.powerCycle := ⟨rfl, rfl, rfl⟩
  exact ⟨_, exec_write_of_powerLost h hsteps, h.ready.of_sameStore hsame rfl, hsame⟩

/-- Where step 3 loses power after an erase and an unlock that succeeded, so do the steps (R178). -/
theorem writeSteps_of_mark_powerLost (hq : s.quiet 2) (h : writeStep3 a (s.beforeMark b) = .powerLost t) :
    writeSteps a b s = .powerLost t := by
  have hdraw1 : s.nextDraw.kind = .doneOk := by rw [State.nextDraw_eq_drawAt]; exact hq 0 (by decide)
  have hdraw2 : (s.afterStep1 b).nextDraw.kind = .doneOk := by
    rw [State.nextDraw_eq_drawAt]; exact s.quiet_popDraw 1 hq 0 (by decide)
  rw [writeSteps, writeStep1_of_doneOk b hdraw1, Res.andThen_done, writeStep2_of_doneOk hdraw2, Res.andThen_done,
    State.afterStep2_afterStep1, h, Res.andThen_powerLost]

/-- The state in which the program of step 3 begins, in a `WRITE` from `s`. -/
def State.atMark (s : State) (b : Page) (addr len : Nat) (data : List Byte) : State :=
  ((s.beginWrite addr len data).beforeMark b).setStep .s3

theorem State.atMark_drawAt (s : State) (b : Page) (addr len : Nat) (data : List Byte) (k : Nat) :
    (s.atMark b addr len data).drawAt k = s.drawAt (2 + k) :=
  State.drawAt_of_drawn 2 k rfl rfl

theorem State.atMark_otherErased (addr len : Nat) (data : List Byte) (hl : legalConfig s.cfg = true)
    (hz : s.zeroFields a 2) : OtherErased s a 2 (s.atMark (otherPage a) addr len data) :=
  .of_sameStore ⟨rfl, rfl, rfl⟩ hl hz

/-- What a power loss during the program of step 3 leaves of the state `m` in which it begins (R243). -/
def State.tornMark (m : State) (a : Page) : State :=
  m.popDraw.programHalf (fieldAddr m.cfg a 2) (m.tornHalf 0x0000)

theorem setPageState_of_tornMark (hz : s.zeroFields a 2) (hl : s.lock = .unlocked)
    (hk : s.nextDraw.kind = .cutDuring) : setPageState a .copy s = .powerLost (s.tornMark a) :=
  setPageState_of_cutDuring hz (by decide) hl hk

/-- The page whose mark is torn is Corrupt unless the two bytes left are both zero or both `0xFF` (R252). -/
theorem State.tornMark_corrupt_iff {b0 b1 : Byte} (hz : s.zeroFields a 2) (hj : s.nextDraw.junk = [b0, b1]) :
    (s.tornMark a).pageState a = .corrupt ↔ ¬ (b0 = 0x00 ∧ b1 = 0x00) ∧ ¬ (b0 = 0xFF ∧ b1 = 0xFF) := by
  have hexcept : (s.tornMark a).zeroFieldsExcept a 2 :=
    State.zeroFields.programHalf (s := s.popDraw) hz (s.tornHalf 0x0000)
  have hfield : (s.tornMark a).readU16 (fieldAddr (s.tornMark a).cfg a 2) = composeHalf .be b0 b1 :=
    (State.readU16_programHalf_self _ _ _).trans (State.tornHalf_zero hj)
  rw [hexcept.corrupt_iff, hfield, Ne, Ne, show (0x0000 : Half) = composeHalf .be 0x00 0x00 from rfl,
    show (0xFFFF : Half) = composeHalf .be 0xFF 0xFF from rfl, composeHalf_inj, composeHalf_inj]

/-- Payload of the active page as before, the other page erased: what the next `INIT` finds beside the torn field. -/
theorem State.tornMark_otherErased (h : OtherErased s a 2 t) (hc : t.cfg = s.cfg) (hl : legalConfig s.cfg = true)
    (hm : Marked a t (t.tornMark a)) :
    (t.tornMark a).pageState (otherPage a) = .erased ∧
      ∀ o < payloadSize s.cfg, (t.tornMark a).pageByte a o = s.pageByte a o := by
  have hlt : legalConfig t.cfg = true := by rw [hc]; exact hl
  refine ⟨?_, fun o ho => ?_⟩
  · exact (State.pageState_congr hlt hm.registers.cfg fun b hb => hm.read_other hlt hb).trans (h.pageState hl hc)
  · exact (hm.pageByte hlt a (by rw [hc]; omega)).trans (h.old o (by omega))

/-- A `WRITE` from a VALID page that loses power during the program of step 3 (R243, R252): what the store is then, and
that the next draw is the first one after the power loss. -/
theorem exec_write_of_tornMark (h : WriteAllowed s a addr len data) (hvalid : s.pageState a = .valid)
    (hq : s.quiet 2) (hk : (s.drawAt 2).kind = .cutDuring) :
    ∃ t, exec (.write addr len data) s = .next t ∧ t.ready ∧ t.cfg = s.cfg ∧ t.nextDraw = s.drawAt 3 ∧
      (∀ b0 b1 : Byte, (s.drawAt 2).junk = [b0, b1] →
        (t.pageState a = .corrupt ↔ ¬ (b0 = 0x00 ∧ b1 = 0x00) ∧ ¬ (b0 = 0xFF ∧ b1 = 0xFF))) ∧
      t.pageState (otherPage a) = .erased ∧ ∀ o < payloadSize s.cfg, t.pageByte a o = s.pageByte a o := by
  have hlegal := h.ready.1
  have hzero : s.zeroFields a 2 := (s.pageState_eq_iff_zeroFields a (t := .valid) (by decide)).mp hvalid
  have herased := State.atMark_otherErased addr len data hlegal hzero
  have hdraw : (s.atMark (otherPage a) addr len data).nextDraw = s.drawAt 2 := by
    rw [State.nextDraw_eq_drawAt, State.atMark_drawAt]
  have hdraw' : (s.atMark (otherPage a) addr len data).popDraw.nextDraw = s.drawAt 3 := by
    rw [State.nextDraw_eq_drawAt, State.drawAt_popDraw, State.atMark_drawAt]
  have hmark := setPageState_of_tornMark herased.fields rfl (by rw [hdraw]; exact hk)
  have hmarked := setPageState_marked a .copy (s.atMark (otherPage a) addr len data)
  rw [hmark] at hmarked
  obtain ⟨hother, hbytes⟩ := State.tornMark_otherErased herased rfl hlegal hmarked
  have hsame : SameStore ((s.atMark (otherPage a) addr len data).tornMark a)
      ((s.atMark (otherPage a) addr len data).tornMark a).powerCycle := ⟨rfl, rfl, rfl⟩
  refine ⟨_, exec_write_of_powerLost h (writeSteps_of_mark_powerLost (s := s.beginWrite addr len data) hq hmark),
    ⟨hlegal, rfl, h.ready.2.2⟩, rfl, hdraw', fun b0 b1 hj => ?_, (hsame.pageState _).trans hother,
    fun o ho => (hsame.pageByte a o).trans (hbytes o ho)⟩
  rw [hsame.pageState]
  exact State.tornMark_corrupt_iff herased.fields (by rw [hdraw]; exact hj)

end

end Sys2Proof.Machine
end

section
/-! The statements of spec 43_arbiter_write.md and 70_reset_and_hazards.md about a power loss between two calls of a
`WRITE` from a VALID page, and during the program of step 3. -/

namespace Sys2Proof.Proofs

open Sys2Proof Sys2Proof.Machine

/-- Settles O49: before step 1 nothing has changed; after it the other page is neither VALID nor COPY until it holds the
new payload. -/
theorem crashBetweenCallsShowsOldOrNew : Obligations.CrashBetweenCallsShowsOldOrNew := by
  intro s a addr len n data h hvalid hintact hother hq hk
  obtain rfl := h.dataLength
  cases n with
  | zero =>
    obtain ⟨t, ht, hready, hsame⟩ := exec_write_of_cutBefore_erase h (by rw [State.nextDraw_eq_drawAt]; exact hk)
    obtain ⟨u, hu, hactive, hbytes, hstatus⟩ := exec_init_of_chosen hready
      (selectPage_of_valid (c := a) (by rw [hsame.pageState, hvalid]) (by rw [hsame.pageState]; exact hother rfl))
    rw [hsame.csumIntact, hintact] at hstatus
    exact ⟨t, u, ht, hu, hstatus, .inl ⟨hactive, fun o _ => (hbytes a o).trans (hsame.pageByte a o)⟩⟩
  | succ n =>
    have hfirst (x : PageState) (h0 : s.nextDraw.kind = .cutBefore) : s.pageState (otherPage a) ≠ x := by
      rw [State.nextDraw_eq_drawAt, hq 0 (Nat.succ_pos n)] at h0
      cases h0
    obtain ⟨t, ht, hready, ⟨_, i, hlo, hhi, hold⟩ | hnew⟩ := exec_write_of_cutAhead h
      ((s.pageState_eq_iff_zeroFields a (by decide)).mp hvalid) (by decide) ⟨n + 1, hq, hk, rfl⟩
    · have hstill : t.pageState a = .valid ∨ t.pageState a = .copy := by
        have hfields := hold.fields
        obtain rfl | rfl : i = 2 ∨ i = 3 := by simp only [stateNumber] at hlo; omega
        · exact .inl ((t.pageState_eq_iff_zeroFields a (by decide)).mpr hfields)
        · exact .inr ((t.pageState_eq_iff_zeroFields a (by decide)).mpr hfields)
      obtain ⟨u, hu, hactive, hbytes, hstatus⟩ := hold.exec_init hready hstill
        (hold.other_ne (by decide) (by decide) (hfirst _)) (hold.other_ne (by decide) (by decide) (hfirst _))
      exact ⟨t, u, ht, hu, hstatus.trans (if_pos hintact), .inl ⟨hactive, hbytes⟩⟩
    · obtain ⟨u, hu, hstatus, hactive, hbytes⟩ := hnew.exec_init hready
      exact ⟨t, u, ht, hu, hstatus, .inr ⟨hactive, fun o ho => (hbytes o ho).trans (s.merged_beginWrite a addr data o)⟩⟩

/-- Settles O52: the fields around the torn one are those of a VALID page, and the other page is erased, so that a
Corrupt page leaves the next `INIT` nothing to choose. -/
theorem tornCopyMarkLosesTheStore : Obligations.TornCopyMarkLosesTheStore := by
  intro s a addr len data h hvalid hq hk hk'
  have hsize := payloadSize_add s.cfg h.ready.1
  obtain ⟨t, hrun, hready, hcfg, hdraw, hcorrupt, hother, hbytes⟩ := exec_write_of_tornMark h hvalid hq hk
  refine ⟨t, hrun, hcorrupt, fun hc => ?_⟩
  have hnone := selectPage_of_neither (t := t) (c := a) (by rw [hc]; decide) (by rw [hc]; decide)
    (by rw [hother]; decide) (by rw [hother]; decide)
  refine ⟨t.openedFresh, exec_init_of_fresh hready hnone (by rw [hdraw]; exact hk'), rfl, ⟨rfl, rfl⟩,
    fun o ho => t.pageByte_clearPage .p1 (by rw [hcfg]; omega), fun ha o ho => ?_⟩
  subst ha
  have hin : inPage t.cfg .p2 (base t.cfg .p2 + o) := ⟨Nat.le_add_right _ _, by rw [hcfg]; omega⟩
  exact (t.read_clearPage_other .p1 fun hin' => not_inPage_both t.cfg hready.1 .p1 _ hin' hin).trans (hbytes o ho)

end Sys2Proof.Proofs
end

section
/-! SUPPORT. Parts of a command whose calls are counted: a part is done, all its calls having succeeded, or the first
call that does not succeed stops it, whatever that call's draw is (spec 20_memory.md R61 to R69; 40_page_state_codec.md
R126). -/

namespace Sys2Proof.Machine

/-! ### Calls that have succeeded, and the one that has not -/

/-- `s` comes `k` calls after `m`, all of which have succeeded (R17, R69). -/
structure CallsDone (m : State) (k : Nat) (s : State) : Prop where
  quiet : m.quiet k
  drawn : s.drawn = m.drawn + k
  draws : s.draws = m.draws.drop k

section
variable {m s : State} {k n : Nat}

theorem CallsDone.refl (m : State) : CallsDone m 0 m := ⟨fun _ h => absurd h (Nat.not_lt_zero _), rfl, rfl⟩

theorem CallsDone.nextDraw (h : CallsDone m k s) : s.nextDraw = m.drawAt k := by
  rw [State.nextDraw_eq_drawAt, State.drawAt_of_drawn k 0 h.drawn h.draws, Nat.add_zero]

theorem CallsDone.congr {t : State} (h : CallsDone m k s) (hn : t.drawn = s.drawn) (hd : t.draws = s.draws) :
    CallsDone m k t :=
  ⟨h.quiet, hn.trans h.drawn, hd.trans h.draws⟩

theorem CallsDone.popDraw (h : CallsDone m k s) (hk : s.nextDraw.kind = .doneOk) : CallsDone m (k + 1) s.popDraw where
  quiet j hj := by
    rcases Nat.lt_succ_iff_lt_or_eq.mp hj with hj | rfl
    · exact h.quiet j hj
    · rw [← h.nextDraw, hk]
  drawn := congrArg (· + 1) h.drawn
  draws := by
    change s.draws.tail = _
    rw [h.draws, List.tail_drop]

/-- Only one call can be the first that does not succeed. -/
theorem State.quiet.eq_of_stopped (hn : m.quiet n) (hn' : (m.drawAt n).kind ≠ .doneOk) (hk : m.quiet k)
    (hk' : (m.drawAt k).kind ≠ .doneOk) : k = n := by
  rcases Nat.lt_trichotomy k n with hlt | heq | hlt
  · exact absurd (hn k hlt) hk'
  · exact heq
  · exact absurd (hk n hlt) hn'

end

/-- Call `k` from `m` on fails or times out: under a finite budget it raises a kind (R212, R216, R228). -/
def State.failsAt (m : State) (k : Nat) : Prop :=
  m.cfg.waitBudget = .finite ∧ ((m.drawAt k).kind = .doneErr ∨ (m.drawAt k).kind = .noCompletion)

/-- A part of a command begun in `m` ends as `r` at call `k`, the first that does not succeed, and `P k` holds of the
state it leaves. A call that fails raises its kind. -/
def StoppedBy (m : State) (P : Nat → State → Prop) (r : Res Unit) : Prop :=
  ∃ k, m.quiet k ∧ (m.drawAt k).kind ≠ .doneOk ∧ P k r.state ∧
    (m.failsAt k → ∃ e t, r = .raised e t ∧ (e = .hardwareProgramError ∨ e = .timeout))

/-- The part is done in a state of `done`, or a call stops it. -/
def Res.DoneOrStopped (m : State) (done : State → Prop) (P : Nat → State → Prop) : Res Unit → Prop
  | .done _ s => done s
  | .raised e s => StoppedBy m P (.raised e s)
  | .hung s => StoppedBy m P (.hung s)
  | .powerLost s => StoppedBy m P (.powerLost s)

section
variable {m : State} {done done' : State → Prop} {P P' : Nat → State → Prop} {r : Res Unit}

theorem StoppedBy.imp (h : StoppedBy m P r) (hP : ∀ k t, P k t → P' k t) : StoppedBy m P' r := by
  obtain ⟨k, hq, hk, hp, hr⟩ := h
  exact ⟨k, hq, hk, hP k _ hp, hr⟩

theorem Res.DoneOrStopped.cases (h : r.DoneOrStopped m done P) : (∃ t, r = .done () t ∧ done t) ∨ StoppedBy m P r := by
  cases r with
  | done _ t => exact .inl ⟨t, rfl, h⟩
  | _ => exact .inr h

theorem Res.DoneOrStopped.imp (h : r.DoneOrStopped m done P) (hd : ∀ t, done t → done' t)
    (hP : ∀ k t, P k t → P' k t) : r.DoneOrStopped m done' P' := by
  cases r with
  | done _ t => exact hd t h
  | _ => exact StoppedBy.imp h hP

/-- What holds of the state a part ends in, however it ends, holds in both cases. -/
theorem Res.DoneOrStopped.and_state {kept : State → Prop} (h : r.DoneOrStopped m done P) (hk : kept r.state) :
    r.DoneOrStopped m (fun t => done t ∧ kept t) (fun k t => P k t ∧ kept t) := by
  have stopped (h : StoppedBy m P r) : StoppedBy m (fun k t => P k t ∧ kept t) r := by
    obtain ⟨k, hq, hd, hp, hr⟩ := h
    exact ⟨k, hq, hd, ⟨hp, hk⟩, hr⟩
  cases r with
  | done _ t => exact ⟨h, hk⟩
  | _ => exact stopped h

theorem Res.DoneOrStopped.andThen {k : Unit → State → Res Unit} (h : r.DoneOrStopped m done P)
    (hk : ∀ t, done t → (k () t).DoneOrStopped m done' P) : (r.andThen k).DoneOrStopped m done' P := by
  cases r with
  | done _ t => exact hk t h
  | _ => exact h

/-- Turn `j` of a pass over `f 0`, `f 1` and so on leads from the invariant `I j` to the next one. -/
theorem Res.DoneOrStopped.forEach_range {α : Type} {part : α → State → Res Unit} {f : Nat → α}
    {I : Nat → State → Prop} {n : Nat} (hturn : ∀ j < n, ∀ s, I j s → (part (f j) s).DoneOrStopped m (I (j + 1)) P)
    {s : State} (h : I 0 s) : (Res.forEach part ((List.range n).map f) s).DoneOrStopped m (I n) P := by
  have from_turn (l j : Nat) (hl : j + l = n) (s : State) (h : I j s) :
      (Res.forEach part ((List.range' j l).map f) s).DoneOrStopped m (I n) P := by
    induction l generalizing j s with
    | zero =>
      obtain rfl : j = n := by omega
      exact h
    | succ l ih => exact (hturn j (by omega) s h).andThen fun t ht => ih (j + 1) (by omega) t ht
  rw [List.range_eq_range']
  exact from_turn n 0 (Nat.zero_add n) s h

end

/-! ### One call -/

section
variable {m s t : State} {k : Nat} {done : State → Prop} {P : Nat → State → Prop}

/-- A call that fails or times out raises its kind. -/
theorem CallsDone.raised {e : ErrorKind} (h : CallsDone m k s) (hk : s.nextDraw.kind ≠ .doneOk)
    (he : e = .hardwareProgramError ∨ e = .timeout) (hp : P k t) : (Res.raised e t).DoneOrStopped m done P := by
  rw [h.nextDraw] at hk
  exact ⟨k, h.quiet, hk, hp, fun _ => ⟨e, t, rfl, he⟩⟩

theorem CallsDone.powerLost (h : CallsDone m k s)
    (hk : s.nextDraw.kind = .cutBefore ∨ s.nextDraw.kind = .cutDuring) (hp : P k t) :
    (Res.powerLost t).DoneOrStopped m done P := by
  rw [h.nextDraw] at hk
  refine ⟨k, h.quiet, ?_, hp, fun ⟨_, hf⟩ => ?_⟩
  · rcases hk with hk | hk <;> rw [hk] <;> decide
  · rcases hk with hk | hk <;> simp [hk] at hf

/-- A call that never completes stops the part, whatever the budget (R228, R229). -/
theorem CallsDone.noCompletion {b : State} (h : CallsDone m k s) (hk : s.nextDraw.kind = .noCompletion)
    (hc : b.cfg = m.cfg) (hp : P k (Machine.noCompletion (α := Bool) b).state) :
    (Machine.noCompletion b).orProgramError.DoneOrStopped m done P := by
  have hne : s.nextDraw.kind ≠ .doneOk := by rw [hk]; decide
  rcases hw : b.cfg.waitBudget with _ | _
  · rw [noCompletion_finite b hw] at hp ⊢
    exact h.raised hne (.inr rfl) hp
  · rw [noCompletion_infinite b hw] at hp ⊢
    rw [h.nextDraw] at hne
    refine ⟨k, h.quiet, hne, hp, fun ⟨hf, _⟩ => ?_⟩
    rw [← hc, hw] at hf
    cases hf

/-- A program of an erased halfword, its failure raised: it is done, or stops the part with at most its own two bytes
changed (R61, R62). -/
theorem program_doneOrStopped {x : Nat} (v : Half) (h : CallsDone m k s) (hc : s.cfg = m.cfg)
    (hl : s.lock = .unlocked) (he : s.readU16 x = 0xFFFF) :
    (writeU16 x v s).orProgramError.DoneOrStopped m
      (fun t => t = s.popDraw.programHalf x v ∧ CallsDone m (k + 1) t)
      (fun j t => j = k ∧ FlashOnly s t ∧ SameOutside (fun b => b = x ∨ b = x + 1) s t) := by
  have hflash := writeU16_flashOnly x v s
  have hout := writeU16_sameOutside x v s
  rcases writeU16_cases x v s with ⟨hrefused, _⟩ | ⟨_, _, ⟨hk, hw⟩ | ⟨hk, hw⟩ | ⟨hk, hw⟩ | ⟨hk, hw⟩ | ⟨hk, hw⟩⟩
  · rw [hl] at hrefused
    exact absurd he (hrefused.resolve_left (by decide))
  all_goals rw [hw] at hflash hout ⊢
  · exact ⟨rfl, (h.popDraw hk).congr rfl rfl⟩
  · exact h.raised (by rw [hk]; decide) (.inl rfl) ⟨rfl, hflash, hout⟩
  · exact h.noCompletion hk hc ⟨rfl, hflash, hout⟩
  · exact h.powerLost (.inl hk) ⟨rfl, hflash, hout⟩
  · exact h.powerLost (.inr hk) ⟨rfl, hflash, hout⟩

/-- An erase, its failure raised (R63, R64). -/
theorem erase_doneOrStopped (a : Nat) (h : CallsDone m k s) (hc : s.cfg = m.cfg) :
    (erasePage a s).orProgramError.DoneOrStopped m (fun t => t = s.clearPage a ∧ CallsDone m (k + 1) t)
      (fun j _ => j = k) := by
  rcases erasePage_cases a s with ⟨hk, hw⟩ | ⟨hk, hw⟩ | ⟨hk, hw⟩ | ⟨hk, hw⟩ | ⟨hk, hw⟩ <;> rw [hw]
  · exact ⟨rfl, (h.popDraw hk).congr rfl rfl⟩
  · exact h.raised (by rw [hk]; decide) (.inl rfl) rfl
  · exact h.noCompletion hk hc rfl
  · exact h.powerLost (.inl hk) rfl
  · exact h.powerLost (.inr hk) rfl

/-- The unlock of step 2 (R66, R177). -/
theorem writeStep2_doneOrStopped (h : CallsDone m k s) :
    (writeStep2 s).DoneOrStopped m (fun t => t = s.afterStep2 ∧ CallsDone m (k + 1) t)
      (fun j t => j = k ∧ t = (s.setStep .s2).popDraw) := by
  have hstep : CallsDone m k (s.setStep .s2) := h.congr rfl rfl
  by_cases hk : s.nextDraw.kind = .doneOk
  · rw [writeStep2_of_doneOk hk]
    exact ⟨rfl, (h.popDraw hk).congr rfl rfl⟩
  rw [writeStep2]
  rcases unlockFlash_cases (s.setStep .s2) with ⟨hok, _⟩ | ⟨_, hw⟩ | ⟨hcut, hw⟩
  · exact absurd hok hk
  · rw [hw, Res.andThen_done, if_neg (by decide)]
    exact hstep.raised hk (.inl rfl) ⟨rfl, rfl⟩
  · rw [hw, Res.andThen_powerLost]
    exact hstep.powerLost hcut ⟨rfl, rfl⟩

end

/-! ### SET_STATE -/

/-- A program of field `i` changes no other field. -/
theorem State.zeroFields.except_of_sameOutside {s t : State} {p : Page} {i : Nat} (h : s.zeroFields p i)
    (hc : t.cfg = s.cfg)
    (hout : SameOutside (fun b => b = fieldAddr s.cfg p i ∨ b = fieldAddr s.cfg p i + 1) s t) :
    t.zeroFieldsExcept p i := by
  intro k hk hne
  have hfield (d : Nat) (hd : d < 2) :
      t.flash.read (fieldAddr s.cfg p k + d) = s.flash.read (fieldAddr s.cfg p k + d) :=
    hout _ (by simp only [fieldAddr]; omega)
  have hlo := hfield 0 (by decide)
  have hhi := hfield 1 (by decide)
  rw [Nat.add_zero] at hlo
  rw [← h k hk, hc, State.readU16_eq, State.readU16_eq, hc, hlo, hhi]

/-- A canonical state that a field other than `i` rules out. -/
theorem State.zeroFieldsExcept.ne {s : State} {p : Page} {i k : Nat} {x : PageState} (h : s.zeroFieldsExcept p i)
    (hx : x ≠ .corrupt) (hk : k < 4) (hne : k ≠ i) (hd : ¬ (k < i ↔ k < stateNumber x)) : s.pageState p ≠ x := by
  intro heq
  have hfield := (s.pageState_eq_iff_zeroFields p hx).mp heq k hk
  rw [h k hk hne] at hfield
  split_ifs at hfield with h1 h2 h2
  · exact hd (iff_of_true h1 h2)
  · exact absurd hfield (by decide)
  · exact absurd hfield (by decide)
  · exact hd (iff_of_false h1 h2)

/-- SET_STATE towards a target `n` fields ahead makes one program for each of them; where one does not succeed, the
fields before it are written and those behind it are not (R126, R128). -/
theorem setPageState_doneOrStopped {p : Page} {target : PageState} {m s : State} {c k n : Nat} (h : s.zeroFields p c)
    (hn : c + n = stateNumber target) (hl : s.lock = .unlocked) (hc : s.cfg = m.cfg) (hd : CallsDone m k s) :
    (setPageState p target s).DoneOrStopped m
      (fun t => (t.zeroFields p (stateNumber target) ∧ CallsDone m (k + n) t) ∧ Marked p s t)
      (fun j t => (∃ i < n, j = k + i ∧ t.zeroFieldsExcept p (c + i)) ∧ Marked p s t) := by
  refine Res.DoneOrStopped.and_state ?_ (setPageState_marked p target s)
  have hle := stateNumber_le target
  induction n generalizing c k s with
  | zero =>
    obtain rfl : c = stateNumber target := by omega
    rw [setPageState_of_same h]
    exact ⟨h, hd⟩
  | succ n ih =>
    have herased : s.readU16 (fieldAddr s.cfg p c) = 0xFFFF := by rw [h c (by omega), if_neg (Nat.lt_irrefl c)]
    rw [setPageState_of_turn (by omega) (h.held (by omega)),
      setField_of_program (by omega) (by rw [herased]; decide)]
    refine ((program_doneOrStopped 0x0000 hd hc hl herased).imp (fun _ => id) ?_).andThen ?_
    · rintro j t ⟨rfl, hflash, hout⟩
      exact ⟨0, Nat.succ_pos n, rfl, h.except_of_sameOutside hflash.cfg hout⟩
    · rintro _ ⟨rfl, hd'⟩
      have hfields : (s.popDraw.programHalf (fieldAddr s.cfg p c) 0x0000).zeroFields p (c + 1) :=
        State.zeroFields_programHalf (s := s.popDraw) h
      rw [show 3 - c = 4 - (c + 1) by omega, ← setPageState_eq_from (by omega) (hfields.held (by omega))]
      refine (ih hfields (by omega) hl hc hd').imp (fun t ht => ?_) ?_
      · rwa [Nat.add_assoc, Nat.add_comm 1 n] at ht
      · rintro j t ⟨i, hi, rfl, hz⟩
        exact ⟨i + 1, by omega, by omega, by rwa [Nat.add_assoc, Nat.add_comm 1 i] at hz⟩

end Sys2Proof.Machine
end

section
/-! SUPPORT. A whole `WRITE`, its calls counted: done with the new store, or stopped by the first call that does not
succeed, with the store that leaves (spec 43_arbiter_write.md R172 to R192). -/

namespace Sys2Proof.Machine

/-! ### What the next `INIT` will choose -/

/-- Page `a` has its payload and checksum still, and `INIT` would choose it. -/
structure ShowsOld (m : State) (a : Page) (s : State) : Prop where
  old : ∀ o < payloadSize m.cfg + 2, s.pageByte a o = m.pageByte a o
  chosen : selectPage (s.pageState .p1) (s.pageState .p2) = some a

/-- The other page holds the merged payload and its checksum, and `INIT` would choose it. -/
structure ShowsNew (m : State) (a : Page) (s : State) : Prop where
  new : HoldsNew m a s
  chosen : selectPage (s.pageState .p1) (s.pageState .p2) = some (otherPage a)

/-- A `WRITE` from a page with `c` zero fields, stopped by call `k`: which calls there are, and that the store shows the
old or the new payload, unless the call is the erase of step 1 or a program of step 3 (R187, R192). -/
def StoppedStore (m : State) (a : Page) (c k : Nat) (s : State) : Prop :=
  k < payloadSize m.cfg / 2 + 9 ∧ ((k = 1 ∧ 2 ≤ c) ∨ 5 - c ≤ k → ShowsOld m a s ∨ ShowsNew m a s)

/-- How many of the first `j` halfwords of the merged payload are not all ones: the ones step 5 programs (R180). -/
def State.programmed (m : State) (a : Page) (j : Nat) : Nat :=
  ((List.range j).filter fun k => ¬ (m.merged a (2 * k) = 0xFF ∧ m.merged a (2 * k + 1) = 0xFF)).length

theorem State.programmed_succ (m : State) (a : Page) (j : Nat) :
    m.programmed a (j + 1) =
      m.programmed a j + if m.merged a (2 * j) = 0xFF ∧ m.merged a (2 * j + 1) = 0xFF then 0 else 1 := by
  rw [State.programmed, List.range_succ, List.filter_append, List.length_append, List.filter_singleton]
  split <;> simp_all [State.programmed]

theorem State.programmed_le (m : State) (a : Page) (j : Nat) : m.programmed a j ≤ j :=
  (List.length_filter_le _ _).trans_eq List.length_range

/-- A `WRITE` under way, `k` calls done, the other page holding what `Q` says. -/
structure Counted (m : State) (a : Page) (k i j : Nat) (Q : State → Prop) (s : State) : Prop where
  underWay : UnderWay m a i j s
  calls : CallsDone m k s
  holds : Q s

section
variable {m s t : State} {a : Page} {i j k c n : Nat} {Q : State → Prop}

/-! ### The steps that mark a page -/

theorem Counted.setStep (h : Counted m a k i j Q s) (hQ : OfOtherBytes m a Q) (r : StepReg) :
    Counted m a k i j Q (s.setStep r) where
  underWay := h.underWay.setStep r
  calls := h.calls.congr rfl rfl
  holds := hQ s _ h.underWay.kept.cfg h.underWay.kept.cfg (fun _ _ => rfl) h.holds

section
variable (h : Counted m a k i j Q s) (hl : legalConfig m.cfg = true) (hQ : OfOtherBytes m a Q)
include h hl hQ

theorem Counted.holds_of_marked {p : Page} (hm : Marked p s t) : Q t :=
  hQ s t h.underWay.kept.cfg (hm.registers.cfg.trans h.underWay.kept.cfg)
    (fun _ => h.underWay.marked_pageByte hl hm (otherPage a)) h.holds

/-- Page `a` marked: steps 3 and 8. -/
theorem Counted.mark {target : PageState} (hn : i + n = stateNumber target) :
    (setPageState a target s).DoneOrStopped m (Counted m a (k + n) (stateNumber target) j Q)
      (fun l t => (∃ d < n, l = k + d ∧ t.zeroFieldsExcept a (i + d)) ∧ Marked a s t) := by
  refine (setPageState_doneOrStopped h.underWay.fields hn h.underWay.unlocked h.underWay.kept.cfg h.calls).imp ?_
    fun _ _ => id
  rintro t ⟨⟨hz, hd⟩, hm⟩
  exact ⟨h.underWay.marked hl hm hz, hd, h.holds_of_marked hl hQ hm⟩

/-- The other page marked: steps 4 and 7. -/
theorem Counted.markOther {target : PageState} (hn : j + n = stateNumber target) :
    (setPageState (otherPage a) target s).DoneOrStopped m (Counted m a (k + n) i (stateNumber target) Q)
      (fun l t => (∃ d < n, l = k + d ∧ t.zeroFieldsExcept (otherPage a) (j + d)) ∧ Marked (otherPage a) s t) := by
  refine (setPageState_doneOrStopped h.underWay.otherFields hn h.underWay.unlocked h.underWay.kept.cfg h.calls).imp ?_
    fun _ _ => id
  rintro t ⟨⟨hz, hd⟩, hm⟩
  exact ⟨h.underWay.otherMarked hl hm hz, hd, h.holds_of_marked hl hQ hm⟩

end

/-! ### What a stopped call leaves -/

/-- Page `a` is COPY, and the other page neither VALID nor COPY. -/
theorem ShowsOld.of_copy (hold : ∀ o < payloadSize m.cfg + 2, s.pageByte a o = m.pageByte a o)
    (hz : s.zeroFields a 3) (hv : s.pageState (otherPage a) ≠ .valid) (hc : s.pageState (otherPage a) ≠ .copy) :
    ShowsOld m a s :=
  ⟨hold, selectPage_of_copy ((s.pageState_eq_iff_zeroFields a (t := .copy) (by decide)).mpr hz) hv hc⟩

theorem UnderWay.showsOld (h : UnderWay m a 3 1 s) : ShowsOld m a s := by
  have hother := (s.pageState_eq_iff_zeroFields _ (t := .write) (by decide)).mpr h.otherFields
  exact .of_copy h.old h.fields (by rw [hother]; decide) (by rw [hother]; decide)

section
variable (h : UnderWay m a i j s) (hl : legalConfig m.cfg = true)
include h hl

/-- A mark of the other page that is stopped keeps page `a`. -/
theorem UnderWay.old_of_marked {p : Page} (hm : Marked p s t) {o : Nat} (ho : o < payloadSize m.cfg + 2) :
    t.pageByte a o = m.pageByte a o :=
  (h.marked_pageByte hl hm a ho).trans (h.old o ho)

theorem UnderWay.fields_of_otherMarked (hm : Marked (otherPage a) s t) : t.zeroFields a i := by
  have hfields := hm.zeroFields_other (n := i) (h.legal hl)
  rw [otherPage_otherPage] at hfields
  exact hfields h.fields

/-- At most the two bytes of one halfword below the other page's state word have changed. -/
theorem UnderWay.of_sameOutside {o : Nat} (ho : o + 2 ≤ payloadSize m.cfg + 2) (hflash : FlashOnly s t)
    (hout : SameOutside (fun b => b = base m.cfg (otherPage a) + o ∨ b = base m.cfg (otherPage a) + o + 1) s t) :
    UnderWay m a i j t := by
  have hsize := payloadSize_add m.cfg hl
  have hdisjoint := base_disjoint m.cfg hl a
  have hcfg := h.kept.cfg
  have hcfg' : t.cfg = m.cfg := hflash.cfg.trans hcfg
  refine ⟨h.kept.trans hflash.kept, hflash.lock.trans h.unlocked, fun x hx => ?_, ?_, fun l hl' => ?_⟩
  · rw [← h.old x hx, State.pageByte, State.pageByte, hcfg, hcfg']
    exact hout _ (by omega)
  · refine State.zeroFields_congr (h.legal hl) hflash.cfg (fun b hb => hout b ?_) h.fields
    rw [hcfg, inPage] at hb
    omega
  · rw [← h.otherFields l hl', State.readU16_eq, State.readU16_eq, hflash.cfg, hcfg, fieldAddr,
      hout _ (by omega), hout _ (by omega)]

end

/-! ### Steps 1 to 4 -/

theorem writeStep1_doneOrStopped (m : State) (a : Page) (c : Nat) (hc : c ≤ 3) :
    (writeStep1 (otherPage a) m).DoneOrStopped m (fun t => t = m.afterStep1 (otherPage a) ∧ CallsDone m 1 t)
      (StoppedStore m a c) := by
  refine (erase_doneOrStopped (s := m.setStep .s1) _ ((CallsDone.refl m).congr rfl rfl) rfl).imp (fun _ => id) ?_
  rintro _ t rfl
  exact ⟨by omega, by omega⟩

/-- An unlock that does not succeed leaves the other page erased. -/
theorem stoppedUnlock_showsOld (hl : legalConfig m.cfg = true) (hz : m.zeroFields a c) (hc : c ≤ 3) (hc' : 2 ≤ c) :
    ShowsOld m a ((m.afterStep1 (otherPage a)).setStep .s2).popDraw := by
  have herased : OtherErased m a c ((m.afterStep1 (otherPage a)).setStep .s2).popDraw :=
    .of_sameStore ⟨rfl, rfl, rfl⟩ hl hz
  have hother := herased.pageState hl rfl
  refine ⟨herased.old, ?_⟩
  obtain rfl | rfl : c = 2 ∨ c = 3 := by omega
  · have hvalid := (State.pageState_eq_iff_zeroFields _ a (t := .valid) (by decide)).mpr herased.fields
    exact selectPage_of_valid hvalid (by rw [hother]; decide)
  · have hcopy := (State.pageState_eq_iff_zeroFields _ a (t := .copy) (by decide)).mpr herased.fields
    exact selectPage_of_copy hcopy (by rw [hother]; decide) (by rw [hother]; decide)

theorem writeStep2_stoppedStore (hl : legalConfig m.cfg = true) (hz : m.zeroFields a c) (hc : c ≤ 3)
    (hd : CallsDone m 1 (m.afterStep1 (otherPage a))) :
    (writeStep2 (m.afterStep1 (otherPage a))).DoneOrStopped m
      (fun t => t = m.beforeMark (otherPage a) ∧ CallsDone m 2 t) (StoppedStore m a c) := by
  refine (writeStep2_doneOrStopped hd).imp (fun t ht => ?_) ?_
  · rwa [State.afterStep2_afterStep1] at ht
  · rintro _ t ⟨rfl, rfl⟩
    exact ⟨by omega, fun h => .inl (stoppedUnlock_showsOld hl hz hc (by omega))⟩

/-- Step 3 begins with the other page erased. -/
theorem beforeMark_counted (hl : legalConfig m.cfg = true) (hz : m.zeroFields a c)
    (hd : CallsDone m 2 (m.beforeMark (otherPage a))) :
    Counted m a 2 c 0 (HoldsMerged m a 0) (m.beforeMark (otherPage a)) := by
  have hsize := payloadSize_add m.cfg hl
  have herased : OtherErased m a c (m.beforeMark (otherPage a)) := .of_sameStore ⟨rfl, rfl, rfl⟩ hl hz
  refine ⟨⟨⟨rfl, rfl, rfl, rfl, rfl, rfl, rfl, rfl, rfl⟩, rfl, herased.old, herased.fields, ?_⟩, hd, fun o ho => ?_⟩
  · exact (State.pageState_eq_iff_zeroFields _ _ (t := .erased) (by decide)).mp (herased.pageState hl rfl)
  · rw [herased.erased o (by omega), if_neg (Nat.not_lt_zero o)]

section
variable (hl : legalConfig m.cfg = true)
include hl

theorem writeStep3_stoppedStore (hc : c ≤ 3) (h : Counted m a 2 c 0 Q s) (hQ : OfOtherBytes m a Q) :
    (writeStep3 a s).DoneOrStopped m (Counted m a (5 - c) 3 0 Q) (StoppedStore m a c) := by
  refine ((h.setStep hQ .s3).mark hl hQ (target := .copy) (n := 3 - c) (Nat.add_sub_cancel' hc)).imp (fun t ht => ?_) ?_
  · rwa [show 2 + (3 - c) = 5 - c by omega] at ht
  · rintro _ t ⟨⟨d, hd, rfl, _⟩, _⟩
    exact ⟨by omega, by omega⟩

theorem writeStep4_stoppedStore (hc : c ≤ 3) (h : Counted m a (5 - c) 3 0 Q s) (hQ : OfOtherBytes m a Q) :
    (writeStep4 (otherPage a) s).DoneOrStopped m (Counted m a (6 - c) 3 1 Q) (StoppedStore m a c) := by
  have hs := h.setStep hQ .s4
  refine (hs.markOther hl hQ (target := .write) (n := 1) rfl).imp (fun t ht => ?_) ?_
  · rwa [show 5 - c + 1 = 6 - c by omega] at ht
  · rintro _ t ⟨⟨d, hd, rfl, hz⟩, hm⟩
    obtain rfl : d = 0 := by omega
    refine ⟨by omega, fun _ => .inl (.of_copy (fun _ => hs.underWay.old_of_marked hl hm)
      (hs.underWay.fields_of_otherMarked hl hm) ?_ ?_)⟩
    · exact hz.ne (k := 1) (by decide) (by decide) (by decide) (by decide)
    · exact hz.ne (k := 1) (by decide) (by decide) (by decide) (by decide)

/-! ### Steps 5 and 6: the merged payload and its checksum -/

/-- A halfword of the other page that is still erased is programmed, or the call stops the `WRITE`. -/
theorem Counted.program (h : Counted m a k 3 1 Q s) (hlo : 5 - c ≤ k) (hhi : k < payloadSize m.cfg / 2 + 9)
    (v : Half) {o : Nat} (ho : o + 2 ≤ payloadSize m.cfg + 2) (he : s.readU16 (base m.cfg (otherPage a) + o) = 0xFFFF)
    {Q' : State → Prop} (hQ' : Q' (s.popDraw.programHalf (base m.cfg (otherPage a) + o) v)) :
    (writeU16 (base m.cfg (otherPage a) + o) v s).orProgramError.DoneOrStopped m (Counted m a (k + 1) 3 1 Q')
      (StoppedStore m a c) := by
  have hu := h.underWay
  refine (program_doneOrStopped v h.calls hu.kept.cfg hu.unlocked he).imp ?_ ?_
  · rintro t ⟨rfl, hd⟩
    exact ⟨hu.programmed hl v ho, hd, hQ'⟩
  · rintro _ t ⟨rfl, hflash, hout⟩
    exact ⟨hhi, fun _ => .inl (hu.of_sameOutside hl ho hflash hout).showsOld⟩

theorem streamHalf_stoppedStore (hc : c ≤ 3) (hn : 2 * n + 1 < payloadSize m.cfg)
    (h : Counted m a (6 - c + m.programmed a n) 3 1 (HoldsMerged m a (2 * n)) s) :
    (streamHalf a (otherPage a) (2 * n) s).DoneOrStopped m
      (Counted m a (6 - c + m.programmed a (n + 1)) 3 1 (HoldsMerged m a (2 * (n + 1)))) (StoppedStore m a c) := by
  have hu := h.underWay
  have hbound := m.programmed_le a n
  have herased : s.readU16 (base m.cfg (otherPage a) + 2 * n) = 0xFFFF := by
    rw [hu.readU16_other, h.holds (2 * n) (by omega), h.holds (2 * n + 1) (by omega), if_neg (Nat.lt_irrefl _),
      if_neg (Nat.not_succ_lt_self), composeHalf_erased]
  have hprogram : s.mergedHalf a (2 * n) = 0xFFFF ↔ m.merged a (2 * n) = 0xFF ∧ m.merged a (2 * n + 1) = 0xFF := by
    rw [hu.mergedHalf hn, ← composeHalf_erased m.cfg.hwOrder, composeHalf_inj]
  rw [streamHalf, hu.kept.cfg, herased, m.programmed_succ]
  by_cases hones : s.mergedHalf a (2 * n) = 0xFFFF
  · obtain ⟨h0, h1⟩ := hprogram.mp hones
    rw [if_neg (not_not.mpr hones.symm), if_pos ⟨h0, h1⟩, Nat.add_zero]
    refine ⟨hu, h.calls, h.holds.next ?_ ?_ fun _ _ _ => rfl⟩
    · rw [h.holds _ (by omega), if_neg (Nat.lt_irrefl _), h0]
    · rw [h.holds _ (by omega), if_neg (Nat.not_succ_lt_self), h1]
  · rw [if_pos (Ne.symm hones), if_neg (hprogram.not.mp hones), ← Nat.add_assoc]
    refine h.program hl (by omega) (by omega) _ (by omega) herased (h.holds.next ?_ ?_ fun o h0 h1 => ?_)
    · rw [hu.pageByte_programmed, if_pos rfl, hu.mergedHalf hn, loAddrByte_compose]
    · rw [hu.pageByte_programmed, if_neg (Nat.succ_ne_self _), if_pos rfl, hu.mergedHalf hn, hiAddrByte_compose]
    · rw [hu.pageByte_programmed, if_neg h0, if_neg h1]

theorem writeStep5_stoppedStore (hc : c ≤ 3) (h : Counted m a (6 - c) 3 1 (HoldsMerged m a 0) s) :
    (writeStep5 a (otherPage a) s).DoneOrStopped m
      (Counted m a (6 - c + m.programmed a (payloadSize m.cfg / 2)) 3 1 (HoldsMerged m a (payloadSize m.cfg)))
      (StoppedStore m a c) := by
  have heven : 2 * (payloadSize m.cfg / 2) = payloadSize m.cfg := by
    have := payloadSize_even m.cfg hl
    omega
  have hpass := Res.DoneOrStopped.forEach_range (part := streamHalf a (otherPage a)) (f := (2 * ·))
    (I := fun n => Counted m a (6 - c + m.programmed a n) 3 1 (HoldsMerged m a (2 * n))) (n := payloadSize m.cfg / 2)
    (fun n hn u hu => streamHalf_stoppedStore hl hc (by omega) hu) (h.setStep (HoldsMerged.ofOtherBytes m a 0) .s5)
  rw [heven] at hpass
  rw [writeStep5, halfOffsets, h.underWay.kept.cfg]
  exact hpass

theorem writeStep6_stoppedStore (h : Counted m a k 3 1 (HoldsMerged m a (payloadSize m.cfg)) s) (hlo : 5 - c ≤ k)
    (hhi : k < payloadSize m.cfg / 2 + 9) :
    (writeStep6 (otherPage a) s).DoneOrStopped m (Counted m a (k + 1) 3 1 (HoldsNew m a)) (StoppedStore m a c) := by
  have hu := h.underWay
  have hs : Counted m a k 3 1 (HoldsMerged m a (payloadSize m.cfg)) ((s.setStep .s6).loadAcc (otherPage a)) :=
    ⟨(hu.setStep .s6).loadAcc (otherPage a), h.calls.congr rfl rfl, h.holds⟩
  have herased : s.readU16 (base m.cfg (otherPage a) + payloadSize m.cfg) = 0xFFFF := by
    rw [hu.readU16_other, h.holds _ (by omega), h.holds _ (by omega), if_neg (Nat.lt_irrefl _),
      if_neg (Nat.not_succ_lt_self), composeHalf_erased]
  rw [writeStep6, checksumAddr, hu.kept.cfg]
  refine hs.program hl hlo hhi _ (by omega) herased
    (h.holds.holdsNew hu.kept.cfg hu.kept.cfg (fun o ho => ?_) (State.readU16_programHalf_self _ _ _))
  rw [hs.underWay.pageByte_programmed, if_neg (by omega), if_neg (by omega)]
  rfl

/-! ### Steps 7 and 8: the commit -/

theorem writeStep7_stoppedStore (h : Counted m a k 3 1 (HoldsNew m a) s) (hhi : k < payloadSize m.cfg / 2 + 9) :
    (writeStep7 (otherPage a) s).DoneOrStopped m (Counted m a (k + 1) 3 2 (HoldsNew m a)) (StoppedStore m a c) := by
  have hs := h.setStep (HoldsNew.ofOtherBytes m a) .s7
  refine (hs.markOther hl (HoldsNew.ofOtherBytes m a) (target := .valid) (n := 1) rfl).imp (fun _ => id) ?_
  rintro _ t ⟨⟨d, hd, rfl, hz⟩, hm⟩
  obtain rfl : d = 0 := by omega
  have hfields := hs.underWay.fields_of_otherMarked hl hm
  refine ⟨hhi, fun _ => ?_⟩
  by_cases hv : t.pageState (otherPage a) = .valid
  · have hcopy := (t.pageState_eq_iff_zeroFields a (t := .copy) (by decide)).mpr hfields
    refine .inr ⟨hs.holds_of_marked hl (HoldsNew.ofOtherBytes m a) hm, selectPage_of_valid hv ?_⟩
    rw [otherPage_otherPage, hcopy]; decide
  · refine .inl (.of_copy (fun _ => hs.underWay.old_of_marked hl hm) hfields hv ?_)
    exact hz.ne (k := 2) (by decide) (by decide) (by decide) (by decide)

theorem writeStep8_stoppedStore (h : Counted m a k 3 2 (HoldsNew m a) s) (hhi : k < payloadSize m.cfg / 2 + 9) :
    (writeStep8 a s).DoneOrStopped m (Counted m a (k + 1) 4 2 (HoldsNew m a)) (StoppedStore m a c) := by
  have hs := h.setStep (HoldsNew.ofOtherBytes m a) .s8
  refine (hs.mark hl (HoldsNew.ofOtherBytes m a) (target := .invalid) (n := 1) rfl).imp (fun _ => id) ?_
  rintro _ t ⟨⟨d, hd, rfl, hz⟩, hm⟩
  obtain rfl : d = 0 := by omega
  have hother := hm.zeroFields_other (hs.underWay.legal hl) hs.underWay.otherFields
  refine ⟨hhi, fun _ => .inr ⟨hs.holds_of_marked hl (HoldsNew.ofOtherBytes m a) hm, selectPage_of_valid ?_ ?_⟩⟩
  · exact (t.pageState_eq_iff_zeroFields _ (t := .valid) (by decide)).mpr hother
  · rw [otherPage_otherPage]
    exact hz.ne (k := 2) (by decide) (by decide) (by decide) (by decide)

end

/-! ### The ten steps -/

/-- What a `WRITE` whose calls have all succeeded leaves, `k` of them (R181 to R192). -/
structure Committed (m : State) (a : Page) (k : Nat) (s : State) : Prop where
  new : HoldsNew m a s
  designated : s.activeIs (otherPage a)
  calls : CallsDone m k s

/-- A `WRITE` from a page with at most three zero fields: the new store is committed after nine calls, less one for each
zero field, and one for each halfword that is not all ones (R192); or a call stops it. -/
theorem writeSteps_doneOrStopped (hl : legalConfig m.cfg = true) (hz : m.zeroFields a c) (hc : c ≤ 3) :
    (writeSteps a (otherPage a) m).DoneOrStopped m
      (Committed m a (9 - c + m.programmed a (payloadSize m.cfg / 2))) (StoppedStore m a c) := by
  have hQ := HoldsMerged.ofOtherBytes m a 0
  have hbound := m.programmed_le a (payloadSize m.cfg / 2)
  refine (writeStep1_doneOrStopped m a c hc).andThen ?_
  rintro _ ⟨rfl, hd1⟩
  refine (writeStep2_stoppedStore hl hz hc hd1).andThen ?_
  rintro _ ⟨rfl, hd2⟩
  exact (writeStep3_stoppedStore hl hc (beforeMark_counted hl hz hd2) hQ).andThen fun _ h3 =>
    (writeStep4_stoppedStore hl hc h3 hQ).andThen fun _ h4 =>
    (writeStep5_stoppedStore hl hc h4).andThen fun _ h5 =>
    (writeStep6_stoppedStore hl h5 (by omega) (by omega)).andThen fun _ h6 =>
    (writeStep7_stoppedStore hl h6 (by omega)).andThen fun _ h7 =>
    (writeStep8_stoppedStore hl h7 (by omega)).andThen fun t h8 =>
      { new := HoldsNew.ofOtherBytes m a t _ h8.underWay.kept.cfg h8.underWay.kept.cfg (fun _ _ => rfl) h8.holds
        designated := ⟨rfl, by rw [otherPage_otherPage]; rfl⟩
        calls := by
          have hd := h8.calls
          rw [show 6 - c + m.programmed a (payloadSize m.cfg / 2) + 1 + 1 + 1 =
            9 - c + m.programmed a (payloadSize m.cfg / 2) by omega] at hd
          exact hd.congr rfl rfl }

end

end Sys2Proof.Machine
end

section
/-! SUPPORT. The state a `WRITE` leaves that is done or that a failed call stops, and the commands after it (spec
42_arbiter_init_read_erase.md R152, R158; 43_arbiter_write.md R173, R181, R187; 60_exceptions.md R218). -/

namespace Sys2Proof.Machine

/-! ### The designators until step 9 -/

/-- `ACTIVE` and `INACTIVE` are as before. -/
def SameDesignation (s t : State) : Prop := t.active = s.active ∧ t.inactive = s.inactive

theorem FlashOnly.sameDesignation {s t : State} (h : FlashOnly s t) : SameDesignation s t := ⟨h.active, h.inactive⟩

/-- A part that raises a kind leaves the designators as they were in `s` (R173). -/
def RaisesDesignated (s : State) (r : Res Unit) : Prop := ∀ e t, r = .raised e t → SameDesignation s t

/-- Only the last part may move the designators, if it is one that does not raise. -/
theorem RaisesDesignated.andThen {s : State} {r : Res Unit} {k : Unit → State → Res Unit}
    (hr : SameDesignation s r.state) (hk : ∀ t, RaisesDesignated t (k () t)) : RaisesDesignated s (r.andThen k) := by
  intro e u h
  cases r with
  | done _ t =>
    obtain ⟨ha, hi⟩ := hk t e u h
    exact ⟨ha.trans hr.1, hi.trans hr.2⟩
  | raised e' t => cases h; exact hr
  | hung | powerLost => cases h

theorem writeStep1_sameDesignation (b : Page) (s : State) : SameDesignation s (writeStep1 b s).state := by
  rw [writeStep1, Res.state_orProgramError]
  exact (erasePage_flashOnly _ (s.setStep .s1)).sameDesignation

theorem writeStep2_sameDesignation (s : State) : SameDesignation s (writeStep2 s).state := by
  rw [writeStep2]
  rcases unlockFlash_cases (s.setStep .s2) with ⟨_, h⟩ | ⟨_, h⟩ | ⟨_, h⟩ <;> rw [h] <;> exact ⟨rfl, rfl⟩

/-- Steps 3, 4, 7 and 8. -/
theorem markStep_sameDesignation (k : StepReg) (p : Page) (target : PageState) (s : State) :
    SameDesignation s (setPageState p target (s.setStep k)).state :=
  (setPageState_flashOnly p target (s.setStep k)).sameDesignation

theorem writeStep5_sameDesignation (a b : Page) (s : State) : SameDesignation s (writeStep5 a b s).state :=
  (Res.rel_forEach FlashOnly.refl FlashOnly.trans (fun off _ s => streamHalf_flashOnly a b off s)
    (s.setStep .s5)).sameDesignation

theorem writeStep6_sameDesignation (b : Page) (s : State) : SameDesignation s (writeStep6 b s).state := by
  rw [writeStep6, Res.state_orProgramError]
  exact (writeU16_flashOnly _ _ ((s.setStep .s6).loadAcc b)).sameDesignation

/-- Steps 1 to 8 leave the designators, and steps 9 and 10 raise nothing (R173, R185). -/
theorem writeSteps_raisesDesignated (a b : Page) (s : State) : RaisesDesignated s (writeSteps a b s) :=
  .andThen (writeStep1_sameDesignation b s) fun s =>
  .andThen (writeStep2_sameDesignation s) fun s =>
  .andThen (markStep_sameDesignation .s3 a .copy s) fun s =>
  .andThen (markStep_sameDesignation .s4 b .write s) fun s =>
  .andThen (writeStep5_sameDesignation a b s) fun s =>
  .andThen (writeStep6_sameDesignation b s) fun s =>
  .andThen (markStep_sameDesignation .s7 b .valid s) fun s =>
  .andThen (markStep_sameDesignation .s8 a .invalid s) fun _ => fun _ _ h => by cases h

/-- Once the erase of step 1 has succeeded, every end of the steps comes after the unlock was attempted (R177, R218). -/
theorem writeSteps_unlockAttempted {a b : Page} {s : State} (hcmd : s.cmd = 0x03) (hk : s.nextDraw.kind = .doneOk) :
    UnlockAttempted (writeSteps a b s).state := by
  rw [writeSteps, writeStep1_of_doneOk b hk, Res.andThen_done]
  exact writeStepsFrom2_unlockAttempted a b (s.afterStep1 b) hcmd

/-! ### The end of the command -/

section
variable {s t : State} {a : Page} {addr len c : Nat} {data : List Byte}

theorem WriteAllowed.kept (h : WriteAllowed s a addr len data) :
    Kept (s.beginWrite addr len data) (writeSteps a (otherPage a) (s.beginWrite addr len data)).state :=
  Course.kept (writeSteps_along (i := .write addr len data) (s₀ := s.beginWrite addr len data)
    (s := s.beginWrite addr len data) rfl h.ready.1 a (otherPage a) h.designated.1 h.designated.2)

theorem exec_write_of_done (h : WriteAllowed s a addr len data)
    (hr : writeSteps a (otherPage a) (s.beginWrite addr len data) = .done () t) :
    exec (.write addr len data) s = .next (t.complete .ok) ∧ (t.complete .ok).ready ∧ t.cfg = s.cfg := by
  have hkept := h.kept
  rw [hr] at hkept
  have hreset : t.resetInside = false := (State.resetInside_congr hkept.inputs).trans h.ready.2.2
  rw [exec_write_of_allowed h, hr, Res.settle_done, State.endIn_of_none t _ hreset]
  exact ⟨rfl, ⟨(congrArg legalConfig hkept.cfg).trans h.ready.1, rfl, hreset⟩, hkept.cfg⟩

/-- A `WRITE` whose calls succeed, from a page with at most three zero fields: the other page is active and holds the
new payload (R181, R190). -/
theorem exec_write_of_quiet (h : WriteAllowed s a addr len data) (hz : s.zeroFields a c) (hc : c ≤ 3)
    (hq : s.quiet (payloadSize s.cfg / 2 + 9)) :
    ∃ t, exec (.write addr len data) s = .next t ∧ t.ready ∧ t.cfg = s.cfg ∧ t.status = .ok ∧
      t.activeIs (otherPage a) ∧
      ∀ o < payloadSize s.cfg, t.pageByte (otherPage a) o = s.newByte a addr data o := by
  obtain rfl := h.dataLength
  rcases (writeSteps_doneOrStopped (m := s.beginWrite addr data.length data) h.ready.1 hz hc).cases with
    ⟨t, ht, hdone⟩ | ⟨k, _, hk, ⟨hbound, _⟩, _⟩
  · obtain ⟨hrun, hready, hcfg⟩ := exec_write_of_done h ht
    exact ⟨_, hrun, hready, hcfg, rfl, hdone.designated,
      fun o ho => (hdone.new.payload o ho).trans (s.merged_beginWrite a addr data o)⟩
  · exact absurd (hq k hbound) hk

/-- An abort keeps the store (R218). -/
theorem State.abort_sameStore (s : State) (e : ErrorKind) : SameStore s (s.abort e) := by
  rw [State.abort_eq]
  exact ⟨rfl, rfl, rfl⟩

/-- A `WRITE` that a call after step 1 fails completes locked, with the old designation and the failure's kind (R173,
R187, R218). -/
theorem exec_write_of_failed {e : ErrorKind} (h : WriteAllowed s a addr len data)
    (hr : writeSteps a (otherPage a) (s.beginWrite addr len data) = .raised e t) (hk : s.nextDraw.kind = .doneOk) :
    exec (.write addr len data) s = .next (t.abort e) ∧ (t.abort e).ready ∧ SameStore t (t.abort e) ∧
      (t.abort e).activeIs a ∧ (t.abort e).lock = .locked ∧ (t.abort e).status = .error e := by
  have hkept := h.kept
  obtain ⟨hactive, hinactive⟩ := writeSteps_raisesDesignated _ _ _ e t hr
  have hunlock : UnlockAttempted (writeSteps a (otherPage a) (s.beginWrite addr len data)).state :=
    writeSteps_unlockAttempted rfl hk
  rw [hr, Res.state_raised] at hkept hunlock
  have hsame := t.abort_sameStore e
  refine ⟨exec_write_of_raised h hr hkept.inputs, ?_, hsame, ⟨?_, ?_⟩, t.abort_lock_of_unlockAttempted hunlock e, ?_⟩
  · refine ⟨?_, ?_, (State.resetInside_congr (hsame.inputs.trans hkept.inputs)).trans h.ready.2.2⟩
    · rw [hsame.cfg, hkept.cfg]; exact h.ready.1
    · rw [State.abort_eq]
  · rw [State.abort_eq]; exact hactive.trans h.designated.1
  · rw [State.abort_eq]; exact hinactive.trans h.designated.2
  · rw [State.abort_eq]

end

/-! ### The next `INIT` -/

section
variable {m s t : State} {a : Page}

/-- Where the old store shows, the next `INIT` succeeds with it. -/
theorem ShowsOld.exec_init (h : ShowsOld m a s) (hsame : SameStore s t) (ht : t.ready) (hcfg : s.cfg = m.cfg)
    (hintact : m.csumIntact a = true) :
    ∃ u, exec .init t = .next u ∧ u.status = .ok ∧ u.activeIs a ∧
      ∀ o < payloadSize m.cfg, u.pageByte a o = m.pageByte a o := by
  obtain ⟨u, hu, hactive, hbytes, hstatus⟩ :=
    exec_init_of_chosen ht (c := a) (by rw [hsame.pageState, hsame.pageState]; exact h.chosen)
  rw [hsame.csumIntact, State.csumIntact_congr hcfg h.old, hintact] at hstatus
  exact ⟨u, hu, hstatus, hactive, fun o ho => (hbytes a o).trans ((hsame.pageByte a o).trans (h.old o (by omega)))⟩

/-- Where the new store shows, the next `INIT` succeeds with it. -/
theorem ShowsNew.exec_init (h : ShowsNew m a s) (hsame : SameStore s t) (ht : t.ready) :
    ∃ u, exec .init t = .next u ∧ u.status = .ok ∧ u.activeIs (otherPage a) ∧
      ∀ o < payloadSize m.cfg, u.pageByte (otherPage a) o = m.merged a o := by
  obtain ⟨u, hu, hactive, hbytes, hstatus⟩ :=
    exec_init_of_chosen ht (c := otherPage a) (by rw [hsame.pageState, hsame.pageState]; exact h.chosen)
  rw [hsame.csumIntact, h.new.intact] at hstatus
  exact ⟨u, hu, hstatus, hactive, fun o ho => (hbytes _ o).trans ((hsame.pageByte _ o).trans (h.new.payload o ho))⟩

end

/-! ### The bytes of the new payload -/

theorem State.newByte_written (s : State) (a : Page) (addr : Nat) {data : List Byte} {i : Nat} (hi : i < data.length) :
    s.newByte a addr data (addr + i) = data[i] := by
  rw [State.newByte, if_pos ⟨Nat.le_add_right _ _, Nat.add_lt_add_left hi _⟩, Nat.add_sub_cancel_left,
    List.getD_eq_getElem _ _ hi]

theorem State.newByte_kept (s : State) (a : Page) {addr o : Nat} {data : List Byte}
    (ho : ¬ (addr ≤ o ∧ o < addr + data.length)) : s.newByte a addr data o = s.pageByte a o :=
  if_neg ho

/-- Every canonical state but INVALID has a field left to write (R92). -/
theorem stateNumber_le_three {x : PageState} (hx : x ≠ .invalid) : stateNumber x ≤ 3 := by
  revert hx
  cases x <;> decide

end Sys2Proof.Machine
end

section
/-! The statements of spec 43_arbiter_write.md about what a `READ` returns after a `WRITE`, and what an `INIT` shows
after one that failed. -/

namespace Sys2Proof.Proofs

open Sys2Proof Sys2Proof.Machine

/-- Settles O39: the other page holds the data in the written range and the old payload around it. -/
theorem writeThenReadReturnsData : Obligations.WriteThenReadReturnsData := by
  intro s a addr len data h hinvalid hcorrupt hq
  obtain ⟨t, hrun, hready, hcfg, hstatus, hactive, hbytes⟩ := exec_write_of_quiet h
    ((s.pageState_eq_iff_zeroFields a hcorrupt).mp rfl) (stateNumber_le_three hinvalid) hq
  obtain rfl := h.dataLength
  have hread {addr' len' : Nat} (h' : addr' + len' < payloadSize s.cfg) :=
    exec_read_of_inRange hready hactive.1 (by rw [hcfg]; exact h')
  refine ⟨t, hrun, hstatus, ⟨_, hread h.inRange, rfl, ?_⟩, fun addr' len' hin hapart =>
    ⟨_, _, hread hin, exec_read_of_inRange h.ready h.designated.1 hin, rfl, ?_⟩⟩
  · refine List.ext_getElem (by simp) fun i hi hi' => ?_
    have hrange := h.inRange
    rw [List.getElem_map, List.getElem_range, hbytes _ (by omega), s.newByte_written a addr hi']
  · refine List.map_congr_left fun i hi => ?_
    have hlt := List.mem_range.mp hi
    rw [hbytes _ (by omega), s.newByte_kept a (by omega)]

/-- Settles O48: the failed call is neither in step 1 nor in step 3, and every other one leaves a page that `INIT`
chooses and finds intact. -/
theorem failedWriteThenInitShowsOldOrNew : Obligations.FailedWriteThenInitShowsOldOrNew := by
  intro s t a addr len n data h hvalid hintact hfinite hn0 hn2 hq hk hrun hstatus
  obtain rfl := h.dataLength
  have hzero : s.zeroFields a 2 := (s.pageState_eq_iff_zeroFields a (t := .valid) (by decide)).mp hvalid
  have hkept := h.kept
  rcases (writeSteps_doneOrStopped (m := s.beginWrite addr data.length data) h.ready.1 hzero (by decide)).cases with
    ⟨x, hx, _⟩ | ⟨k, hqk, hstop, ⟨_, hshows⟩, hraise⟩
  · rw [(exec_write_of_done h hx).1] at hrun
    cases hrun
    exact absurd rfl hstatus
  · have hfailed : (s.drawAt n).kind ≠ .doneOk := by
      rcases hk with hk | hk <;> rw [hk] <;> decide
    obtain rfl : k = n := State.quiet.eq_of_stopped (m := s) hq hfailed hqk hstop
    obtain ⟨e, x, hx, he⟩ := hraise ⟨hfinite, hk⟩
    have hfirst : s.nextDraw.kind = .doneOk := by rw [State.nextDraw_eq_drawAt]; exact hq 0 (by omega)
    obtain ⟨hrun', hready, hsame, hactive, hlock, hended⟩ := exec_write_of_failed h hx hfirst
    rw [hrun'] at hrun
    cases hrun
    rw [hx] at hshows hkept
    refine ⟨hactive, hlock, hready.2.1, ?_, ?_⟩
    · rw [hended]
      exact he.imp (congrArg Status.error) (congrArg Status.error)
    · rcases hshows (by omega) with hold | hnew
      · obtain ⟨u, hu, hok, hdes, hbytes⟩ := hold.exec_init hsame hready hkept.cfg hintact
        exact ⟨u, hu, hok, .inl ⟨hdes, hbytes⟩⟩
      · obtain ⟨u, hu, hok, hdes, hbytes⟩ := hnew.exec_init hsame hready
        exact ⟨u, hu, hok, .inr ⟨hdes, fun o ho => (hbytes o ho).trans (s.merged_beginWrite a addr data o)⟩⟩

end Sys2Proof.Proofs
end

section
/-! SUPPORT. What a `WRITE` spares whatever its draws: which steps may change which bytes of flash, and where the
designators and the host's registers stay (spec 43_arbiter_write.md R170 to R187; 60_exceptions.md R218, R221). -/

namespace Sys2Proof.Machine

/-! ### The body of the command -/

/-- A `WRITE` past its acceptance goes through the ten steps with the pages the designators name, or raises
`OutOfRange` at once (R171, R172). -/
theorem writeBody_cases (s : State) :
    (∃ a b, s.active = designatorOf a ∧ s.inactive = designatorOf b ∧ writeBody s = writeSteps a b s) ∨
    writeBody s = .raised .outOfRange s := by
  unfold writeBody
  split
  next a b ha hb =>
    split
    · exact .inl ⟨a, b, (pageOf_eq_some _ _).mp ha, (pageOf_eq_some _ _).mp hb, rfl⟩
    · exact .inr rfl
  next => exact .inr rfl

theorem designatorOf_injective {p q : Page} (h : designatorOf p = designatorOf q) : p = q := by
  revert h
  cases p <;> cases q <;> decide

/-- The precondition of R171 fails: no active page, or the access out of range. -/
theorem writeBody_of_outOfRange {s : State} (h : s.active = .none ∨ payloadSize s.cfg ≤ s.addr + s.len) :
    s.inRange = false ∧ writeBody s = .raised .outOfRange s := by
  have hrange : s.inRange = false := decide_eq_false fun ⟨hactive, hin⟩ =>
    h.elim hactive fun hout => absurd hin (Nat.not_lt.mpr hout)
  refine ⟨hrange, ?_⟩
  unfold writeBody
  split
  · rw [hrange, if_neg Bool.false_ne_true]
  · rfl

theorem exec_write_of_outOfRange {s : State} {addr : Nat} {data : List Byte} (hs : s.ready)
    (h : s.active = .none ∨ payloadSize s.cfg ≤ addr + data.length) :
    exec (.write addr data.length data) s = .next (s.afterWrite addr data (.error .outOfRange)) := by
  obtain ⟨hrange, hbody⟩ := writeBody_of_outOfRange (s := s.beginWrite addr data.length data) h
  refine (writeCommand_eq_next addr data.length data s _).mpr ⟨hs.2.1, hs.1, rfl, fun hn => ?_, ?_⟩
  · exact Bool.false_ne_true (hrange.symm.trans hn.1)
  · change _ = (writeBody (s.beginWrite addr data.length data)).settle
    rw [hbody, Res.settle_raised, State.endIn_of_none (s.beginWrite addr data.length data) _ hs.2.2,
      State.abort_eq]
    rfl

/-! ### Flash -/

@[simp] theorem Res.settle_flash (r : Res Unit) : r.settle.flash = r.state.flash := by
  rcases r.settle_ends with ⟨_, h⟩ | ⟨_, _, _, _, h⟩ | ⟨_, h⟩ | ⟨_, h⟩ <;> rw [h] <;> rfl

@[simp] theorem Res.settle_cfg (r : Res Unit) : r.settle.cfg = r.state.cfg := by
  rcases r.settle_ends with ⟨_, h⟩ | ⟨_, _, _, _, h⟩ | ⟨_, h⟩ | ⟨_, h⟩ <;> rw [h] <;> rfl

/-- Where a `WRITE` with page `a` active may change flash: in the other page, and in the state word of `a` (R170). -/
def mayWrite (c : Config) (a : Page) (b : Nat) : Prop := inPage c (otherPage a) b ∨ inStateWord c a b

/-- Flash is as before but where such a `WRITE` may change it. -/
structure Spares (a : Page) (s t : State) : Prop where
  cfg : t.cfg = s.cfg
  outside : legalConfig s.cfg = true → SameOutside (mayWrite s.cfg a) s t

section
variable {a : Page} {s t : State}

theorem Spares.of_sameFlash (hc : t.cfg = s.cfg) (hf : t.flash = s.flash) : Spares a s t :=
  ⟨hc, fun _ _ _ => by rw [hf]⟩

theorem Spares.refl (a : Page) (s : State) : Spares a s s := .of_sameFlash rfl rfl

theorem Spares.trans (a : Page) (s t u : State) (h : Spares a s t) (h' : Spares a t u) : Spares a s u where
  cfg := h'.cfg.trans h.cfg
  outside hl := by
    have hout := h'.outside (by rw [h.cfg]; exact hl)
    rw [h.cfg] at hout
    exact SameOutside.trans _ s t u (h.outside hl) hout

theorem Spares.setStep (k : StepReg) (h : Spares a (s.setStep k) t) : Spares a s t := ⟨h.cfg, h.outside⟩

/-- A program below the state word of the other page. -/
theorem writeU16_spares (v : Half) {o : Nat} (ho : legalConfig s.cfg = true → o + 2 ≤ s.cfg.pageSize) :
    Spares a s (writeU16 (base s.cfg (otherPage a) + o) v s).orProgramError.state := by
  rw [Res.state_orProgramError]
  refine ⟨(writeU16_flashOnly _ _ s).cfg, fun hl b hb => writeU16_sameOutside _ v s b fun hin => hb (.inl ?_)⟩
  have hfit := ho hl
  simp only [inPage]
  omega

theorem writeStep1_spares (a : Page) (s : State) : Spares a s (writeStep1 (otherPage a) s).state := by
  rw [writeStep1, Res.state_orProgramError]
  exact .setStep .s1 ⟨(erasePage_flashOnly _ (s.setStep .s1)).cfg,
    fun _ b hb => erasePage_sameOutside _ (s.setStep .s1) b fun hin => hb (.inl hin)⟩

theorem writeStep2_spares (a : Page) (s : State) : Spares a s (writeStep2 s).state := by
  rw [writeStep2]
  rcases unlockFlash_cases (s.setStep .s2) with ⟨_, h⟩ | ⟨_, h⟩ | ⟨_, h⟩ <;> rw [h] <;> exact .of_sameFlash rfl rfl

/-- Steps 3, 4, 7 and 8 each mark a page. -/
theorem markStep_spares (a : Page) (k : StepReg) (p : Page) (target : PageState) (s : State) :
    Spares a s (setPageState p target (s.setStep k)).state := by
  have hmark := setPageState_clearsStateWord p target (s.setStep k)
  refine .setStep k ⟨hmark.cfg, fun hl b hb => hmark.outside b fun hin => hb ?_⟩
  by_cases hp : p = a
  · subst hp; exact .inr hin
  · obtain rfl := eq_otherPage_of_ne hp
    exact .inl (inPage_of_inStateWord hl hin)

theorem streamHalf_spares {off : Nat} (ho : off + 2 ≤ payloadSize s.cfg) :
    Spares a s (streamHalf a (otherPage a) off s).state := by
  unfold streamHalf
  split
  · exact writeU16_spares _ fun _ => ho.trans (Nat.sub_le _ _)
  · exact .refl a s

theorem writeStep5_spares (a : Page) (s : State) : Spares a s (writeStep5 a (otherPage a) s).state := by
  have pass (l : List Nat) (t : State) (hl : ∀ off ∈ l, off + 2 ≤ payloadSize t.cfg) :
      Spares a t (Res.forEach (streamHalf a (otherPage a)) l t).state := by
    induction l generalizing t with
    | nil => exact .refl a t
    | cons off rest ih =>
      have hturn : Spares a t (streamHalf a (otherPage a) off t).state := streamHalf_spares (hl off (by simp))
      refine Res.rel_andThen (Spares.trans a) hturn fun _ u hu => ih u fun x hx => ?_
      rw [hu] at hturn
      rw [show u.cfg = t.cfg from hturn.cfg]
      exact hl x (by simp [hx])
  exact .setStep .s5 (pass _ (s.setStep .s5) (halfOffsets_fit s.cfg))

theorem writeStep6_spares (a : Page) (s : State) : Spares a s (writeStep6 (otherPage a) s).state := by
  have hloaded : Spares a s ((s.setStep .s6).loadAcc (otherPage a)) := .of_sameFlash rfl rfl
  refine Spares.trans a s _ _ hloaded (writeU16_spares (s := (s.setStep .s6).loadAcc (otherPage a)) _ fun hl => ?_)
  have hsize := payloadSize_add s.cfg hl
  change payloadSize s.cfg + 2 ≤ s.cfg.pageSize
  omega

/-- No step of a `WRITE`, whatever its calls do, changes flash elsewhere (R170). -/
theorem writeSteps_spares (a : Page) (s : State) : Spares a s (writeSteps a (otherPage a) s).state :=
  Res.rel_andThen (Spares.trans a) (writeStep1_spares a s) fun _ s _ =>
  Res.rel_andThen (Spares.trans a) (writeStep2_spares a s) fun _ s _ =>
  Res.rel_andThen (Spares.trans a) (markStep_spares a .s3 a .copy s) fun _ s _ =>
  Res.rel_andThen (Spares.trans a) (markStep_spares a .s4 (otherPage a) .write s) fun _ s _ =>
  Res.rel_andThen (Spares.trans a) (writeStep5_spares a s) fun _ s _ =>
  Res.rel_andThen (Spares.trans a) (writeStep6_spares a s) fun _ s _ =>
  Res.rel_andThen (Spares.trans a) (markStep_spares a .s7 (otherPage a) .valid s) fun _ s _ =>
  Res.rel_andThen (Spares.trans a) (markStep_spares a .s8 a .invalid s) fun _ s _ =>
  Res.rel_andThen (r := writeStep9 a (otherPage a) s) (Spares.trans a) (.of_sameFlash rfl rfl) fun _ _ _ =>
  .of_sameFlash rfl rfl

theorem writeBody_spares (h : s.activeIs a) : Spares a s (writeBody s).state := by
  rcases writeBody_cases s with ⟨x, y, hx, hy, hbody⟩ | hbody <;> rw [hbody]
  · obtain rfl := designatorOf_injective (hx.symm.trans h.1)
    obtain rfl := designatorOf_injective (hy.symm.trans h.2)
    exact writeSteps_spares x s
  · exact .refl a s

/-- Payload and checksum of the active page are spared (R170). -/
theorem Spares.pageByte (h : Spares a s t) (hl : legalConfig s.cfg = true) {o : Nat} (ho : o < payloadSize s.cfg + 2) :
    t.pageByte a o = s.pageByte a o := by
  have hsize := payloadSize_add s.cfg hl
  rw [State.pageByte, State.pageByte, h.cfg]
  refine h.outside hl _ fun hin => hin.elim (fun hother => ?_) fun hword => ?_
  · exact not_inPage_both s.cfg hl a _ ⟨Nat.le_add_right _ _, Nat.add_lt_add_left (by omega) _⟩ hother
  · simp only [inStateWord, fieldAddr] at hword
    omega

/-- Every byte outside the two pages is spared. -/
theorem Spares.read_outside (h : Spares a s t) (hl : legalConfig s.cfg = true) {b : Nat} (h1 : ¬ inPage s.cfg .p1 b)
    (h2 : ¬ inPage s.cfg .p2 b) : t.flash.read b = s.flash.read b := by
  have hout (p : Page) : ¬ inPage s.cfg p b := by cases p <;> assumption
  exact h.outside hl b fun hin => hin.elim (hout _) fun hword => hout a (inPage_of_inStateWord hl hword)

end

/-- A form of `WRITE` that answers a next state: the block was free and its configuration legal, and what it leaves is
settled from the body run on the latched operands (R100, R172). -/
theorem exec_writeForm {i : Instr} {s t : State} (hi : writeForm i = true) (h : exec i s = .next t) :
    legalConfig s.cfg = true ∧ ∃ m, m.active = s.active ∧ m.inactive = s.inactive ∧ SameStore s m ∧
      t = (writeBody m).settle := by
  cases exec_runs h with
  | command m r _ hc hr =>
    refine ⟨hc, m, by rw [hr.accepted], by rw [hr.accepted], ?_, by rw [← hr.body hi]; exact hr.ends⟩
    rw [hr.accepted]
    exact ⟨rfl, rfl, rfl⟩
  | micro r _ _ hr => exact absurd (hi.symm.trans hr.notWrite) (by decide)

/-- Flash after a form of `WRITE`, whatever its draws (R170, R221). -/
theorem exec_writeForm_spares {i : Instr} {s t : State} {a : Page} (hi : writeForm i = true) (ha : s.activeIs a)
    (h : exec i s = .next t) : legalConfig s.cfg = true ∧ Spares a s t := by
  obtain ⟨hl, m, hactive, hinactive, hsame, rfl⟩ := exec_writeForm hi h
  have hbody := writeBody_spares (s := m) (a := a) ⟨hactive.trans ha.1, hinactive.trans ha.2⟩
  exact ⟨hl, Spares.trans a s m _ (.of_sameFlash hsame.cfg hsame.flash)
    (Spares.trans a m _ _ hbody (.of_sameFlash (Res.settle_cfg _) (Res.settle_flash _)))⟩

/-! ### The designators -/

/-- A part that is not done leaves the designators as they were in `s` (R173). -/
def StopsDesignated (s : State) (r : Res Unit) : Prop := (∃ t, r = .done () t) ∨ SameDesignation s r.state

theorem StopsDesignated.andThen {s : State} {r : Res Unit} {k : Unit → State → Res Unit}
    (hr : SameDesignation s r.state) (hk : ∀ t, StopsDesignated t (k () t)) : StopsDesignated s (r.andThen k) := by
  cases r with
  | done _ t => exact (hk t).imp id fun ⟨ha, hi⟩ => ⟨ha.trans hr.1, hi.trans hr.2⟩
  | raised | hung | powerLost => exact .inr hr

/-- Steps 1 to 8 leave the designators, and steps 9 and 10 make no call that could stop them (R173, R185). -/
theorem writeSteps_stopsDesignated (a b : Page) (s : State) : StopsDesignated s (writeSteps a b s) :=
  .andThen (writeStep1_sameDesignation b s) fun s =>
  .andThen (writeStep2_sameDesignation s) fun s =>
  .andThen (markStep_sameDesignation .s3 a .copy s) fun s =>
  .andThen (markStep_sameDesignation .s4 b .write s) fun s =>
  .andThen (writeStep5_sameDesignation a b s) fun s =>
  .andThen (writeStep6_sameDesignation b s) fun s =>
  .andThen (markStep_sameDesignation .s7 b .valid s) fun s =>
  .andThen (markStep_sameDesignation .s8 a .invalid s) fun _ => .inl ⟨_, rfl⟩

theorem writeBody_stopsDesignated (s : State) : StopsDesignated s (writeBody s) := by
  rcases writeBody_cases s with ⟨a, b, _, _, hbody⟩ | hbody <;> rw [hbody]
  · exact writeSteps_stopsDesignated a b s
  · exact .inr ⟨rfl, rfl⟩

/-- Only a part that stopped short can end with another status than `OK`, and nothing that is left to do then moves the
designators (R173, R218). -/
theorem StopsDesignated.settle {s : State} {r : Res Unit} (h : StopsDesignated s r) (hstatus : r.settle.status ≠ .ok) :
    SameDesignation s r.settle := by
  rcases r.settle_cases with ⟨_, hend⟩ | ⟨t, _, hend⟩ | ⟨e, t, rfl, hend⟩ | ⟨t, rfl, hend⟩ | ⟨t, _, hend⟩ <;>
    rw [hend] at hstatus ⊢
  · exact absurd rfl hstatus
  · exact absurd rfl hstatus
  · obtain ⟨_, hdone⟩ | hsame := h
    · cases hdone
    · rw [State.abort_eq]; exact hsame
  · obtain ⟨_, hdone⟩ | hsame := h
    · cases hdone
    · exact hsame
  · exact absurd rfl hstatus

/-! ### Steps 1 and 2 failing -/

section
variable {s t : State} {a : Page} {addr len : Nat} {data : List Byte}

/-- The state in which a `WRITE` from `s` makes the erase of step 1. -/
def State.atErase (s : State) (addr len : Nat) (data : List Byte) : State := (s.beginWrite addr len data).setStep .s1

/-- The state in which a `WRITE` from `s` that has erased page `b` makes the unlock of step 2. -/
def State.atUnlock (s : State) (b : Page) (addr len : Nat) (data : List Byte) : State :=
  ((s.beginWrite addr len data).afterStep1 b).setStep .s2

/-- Before step 2 the abort leaves `LOCK` as it was (R218). -/
theorem State.abort_lock_atErase (s : State) (b addr len : Nat) (data : List Byte) (e : ErrorKind) :
    (((s.atErase addr len data).tearPage b).abort e).lock = s.lock := by
  have hearly : ¬ 2 ≤ stepNumber .s1 := by decide
  rw [State.abort, if_neg fun ⟨_, hstep⟩ => hearly hstep]
  rfl

/-- What a `WRITE` whose erase raises a kind leaves: `LOCK` as it was, the unlock not having been attempted, and the
designators (R173, R218). -/
theorem exec_write_of_erase_raised {e : ErrorKind} (h : WriteAllowed s a addr len data)
    (he : (erasePage (base s.cfg (otherPage a)) (s.atErase addr len data)).orProgramError =
      .raised e ((s.atErase addr len data).tearPage (base s.cfg (otherPage a))))
    (hrun : exec (.write addr len data) s = .next t) :
    t.status = .error e ∧ t.busy = false ∧ t.lock = s.lock ∧ t.activeIs a ∧
      ∀ b, ¬ inPage s.cfg (otherPage a) b → t.flash.read b = s.flash.read b := by
  have hstep1 : writeStep1 (otherPage a) (s.beginWrite addr len data) =
      .raised e ((s.atErase addr len data).tearPage (base s.cfg (otherPage a))) := he
  have hsteps : writeSteps a (otherPage a) (s.beginWrite addr len data) =
      .raised e ((s.atErase addr len data).tearPage (base s.cfg (otherPage a))) := by
    rw [writeSteps, hstep1, Res.andThen_raised]
  rw [exec_write_of_raised h hsteps rfl] at hrun
  cases hrun
  refine ⟨?_, ?_, State.abort_lock_atErase _ _ _ _ _ e, ?_, fun b hb => ?_⟩
  all_goals rw [State.abort_eq]
  · exact h.designated
  · exact (s.atErase addr len data).read_tearPage_other (otherPage a) hb

/-- What a `WRITE` whose unlock fails leaves: flash locked again, the other page erased (R173, R177, R218). -/
theorem exec_write_of_unlock_failed (h : WriteAllowed s a addr len data) (h0 : s.nextDraw.kind = .doneOk)
    (h1 : (s.drawAt 1).kind = .doneErr) (hrun : exec (.write addr len data) s = .next t) :
    t.status = .error .hardwareProgramError ∧ t.busy = false ∧ t.lock = .locked ∧ t.activeIs a ∧
      (∀ o < s.cfg.pageSize, t.pageByte (otherPage a) o = 0xFF) ∧
      ∀ b, ¬ inPage s.cfg (otherPage a) b → t.flash.read b = s.flash.read b := by
  have hdraw : (s.atUnlock (otherPage a) addr len data).nextDraw.kind = .doneErr := by
    rw [State.nextDraw_eq_drawAt, show (s.atUnlock (otherPage a) addr len data).drawAt 0 = s.drawAt 1 from
      s.drawAt_popDraw 0, h1]
  have hunlock : unlockFlash (s.atUnlock (otherPage a) addr len data) =
      .done .locked (s.atUnlock (otherPage a) addr len data).popDraw := by
    rw [unlockFlash, hdraw]
  have hstep2 : writeStep2 ((s.beginWrite addr len data).afterStep1 (otherPage a)) =
      .raised .hardwareProgramError (s.atUnlock (otherPage a) addr len data).popDraw := by
    rw [writeStep2, ← State.atUnlock, hunlock, Res.andThen_done, if_neg (by decide)]
  have hsteps : writeSteps a (otherPage a) (s.beginWrite addr len data) =
      .raised .hardwareProgramError (s.atUnlock (otherPage a) addr len data).popDraw := by
    rw [writeSteps, writeStep1_of_doneOk _ (s := s.beginWrite addr len data) h0, Res.andThen_done, hstep2,
      Res.andThen_raised]
  have hattempted : UnlockAttempted (s.atUnlock (otherPage a) addr len data).popDraw := ⟨rfl, le_rfl⟩
  rw [exec_write_of_raised h hsteps rfl] at hrun
  cases hrun
  refine ⟨?_, ?_, State.abort_lock_of_unlockAttempted _ hattempted _, ?_, fun o ho => ?_, fun b hb => ?_⟩
  all_goals rw [State.abort_eq]
  · exact h.designated
  · exact s.pageByte_clearPage (otherPage a) ho
  · exact s.read_clearPage_other (otherPage a) hb

end

/-! ### The values of the typed accessors -/

theorem pack1_singleton (v : BitVec 8) : pack1 [v] = v := rfl

/-- `pack_2` inverts `bytes_2` (R200). -/
theorem pack2_bytes2 (order : ByteOrder) (v : BitVec 16) : pack2 order (bytes2 order v) = v := by
  cases order <;>
    (simp only [pack2, bytes2, byteAt, List.getD_cons_zero, List.getD_cons_succ, concat8, bitField]; bv_omega)

/-- `pack_4` inverts `bytes_4` (R200). -/
theorem pack4_bytes4 (order : ByteOrder) (v : BitVec 32) : pack4 order (bytes4 order v) = v := by
  cases order <;>
    (simp only [pack4, bytes4, byteAt, List.getD_cons_zero, List.getD_cons_succ, concat16, concat8, bitField]
     bv_omega)

/-- No instruction changes the configuration (R7). -/
theorem exec_cfg {i : Instr} {s t : State} (h : exec i s = .next t) : t.cfg = s.cfg := by
  cases exec_runs h with
  | command m r _ _ hr =>
    rw [hr.ends, Res.settle_cfg, (Course.kept hr.along).cfg, hr.accepted]
  | micro r _ _ hr =>
    have hcfg := (Course.kept hr.along).cfg
    rw [hr.ends]
    rcases r.settleMicro_ends with ⟨_, h⟩ | ⟨_, _, h⟩ | ⟨_, h⟩ | ⟨_, h⟩ <;> rw [h] <;> exact hcfg

end Sys2Proof.Machine
end

section
/-! The statements of spec 43_arbiter_write.md about what every `WRITE` spares, about the failures before a page is
marked, and about the typed accessors. -/

namespace Sys2Proof.Proofs

open Sys2Proof Sys2Proof.Machine

/-- Settles O36: the body raises `OutOfRange` before its first call, and the abort leaves `LOCK`. -/
theorem writeOutOfRangeTouchesNothing : Obligations.WriteOutOfRangeTouchesNothing := by
  rintro s addr _ data hs rfl h
  exact exec_write_of_outOfRange hs h

/-- Settles O43: each step changes flash in the other page or in a state word only. -/
theorem writeNeverTouchesActivePayload : Obligations.WriteNeverTouchesActivePayload := by
  intro s t a i hi ha h
  obtain ⟨hl, hspares⟩ := exec_writeForm_spares hi ha h
  exact ⟨fun _ => hspares.pageByte hl, fun _ => hspares.read_outside hl⟩

/-- Settles O45: the designators move in step 9, after the last call, and a `WRITE` that gets there ends `OK`. -/
theorem failedWriteKeepsDesignation : Obligations.FailedWriteKeepsDesignation := by
  intro s t i hi h hstatus
  obtain ⟨_, m, hactive, hinactive, _, rfl⟩ := exec_writeForm hi h
  obtain ⟨ha, hb⟩ := (writeBody_stopsDesignated m).settle hstatus
  exact ⟨ha.trans hactive, hb.trans hinactive⟩

/-- Settles O46: each failing call is the first that does not succeed, and the abort locks from step 2 on. -/
theorem writeFailuresBeforeMarking : Obligations.WriteFailuresBeforeMarking := by
  intro s a addr len data h
  have hrun := exec_write_of_allowed h
  rw [← s.nextDraw_eq_drawAt]
  refine ⟨_, fun hk => ⟨hrun, exec_write_of_erase_raised h ?_ hrun⟩,
    fun hk hw => ⟨hrun, exec_write_of_erase_raised h ?_ hrun⟩,
    fun h0 h1 => ⟨hrun, exec_write_of_unlock_failed h h0 h1 hrun⟩⟩
  · rw [erasePage_of_doneErr _ (s := s.atErase addr len data) hk, Res.orProgramError_done_false]
  · rw [erasePage_of_noCompletion _ (s := s.atErase addr len data) hk, noCompletion_finite _ (by exact hw),
      Res.orProgramError_raised]

/-- Settles O40: the read of the written range returns the bytes of the value, and packing them gives it back. -/
theorem typedWriteThenReadRoundTrip : Obligations.TypedWriteThenReadRoundTrip := by
  intro s a addr hs ha hinvalid hcorrupt hq
  have trip (data : List Byte) (hrange : addr + data.length < payloadSize s.cfg) :
      ∃ t u, exec (.write addr data.length data) s = .next t ∧ t.status = .ok ∧
        exec (.read addr data.length) t = .next u ∧ u.status = .ok ∧ u.rdata = data ∧ u.cfg = s.cfg := by
    obtain ⟨t, ht, hok, ⟨u, hu, hok', hdata⟩, _⟩ :=
      writeThenReadReturnsData s a addr data.length data ⟨hs, ha, rfl, hrange⟩ hinvalid hcorrupt hq
    exact ⟨t, u, ht, hok, hu, hok', hdata, (exec_cfg hu).trans (exec_cfg ht)⟩
  refine ⟨fun hrange v => ?_, fun hrange v => ?_, fun hrange v => ?_⟩
  · obtain ⟨t, u, ht, hok, hu, hok', hdata, _⟩ := trip [v] hrange
    exact ⟨t, u, ht, hok, hu, hok', by rw [State.value8, hdata, pack1_singleton]⟩
  · have htrip := trip (bytes2 s.cfg.accOrder v)
    rw [bytes2_length] at htrip
    obtain ⟨t, u, ht, hok, hu, hok', hdata, hcfg⟩ := htrip hrange
    exact ⟨t, u, ht, hok, hu, hok', by rw [State.value16, hdata, hcfg, pack2_bytes2]⟩
  · have htrip := trip (bytes4 s.cfg.accOrder v)
    rw [bytes4_length] at htrip
    obtain ⟨t, u, ht, hok, hu, hok', hdata, hcfg⟩ := htrip hrange
    exact ⟨t, u, ht, hok, hu, hok', by rw [State.value32, hdata, hcfg, pack4_bytes4]⟩

end Sys2Proof.Proofs
end

section
/-! SUPPORT. A `WRITE` absent hardware error as a whole: from every page that step 3 can mark the new store is
committed, the designations are swapped, and no other register moves (spec 43_arbiter_write.md R172 to R192). -/

namespace Sys2Proof.Machine

/-! ### The registers -/

/-- Nothing differs but flash and the registers that a `WRITE` between acceptance and end may move. -/
def WriteFrame (s t : State) : Prop :=
  t = { s with
        active := t.active, inactive := t.inactive, step := t.step, acc := t.acc, lock := t.lock, fbusy := t.fbusy
        flash := t.flash, draws := t.draws, drawn := t.drawn }

theorem WriteFrame.trans (s t u : State) (h : WriteFrame s t) (h' : WriteFrame t u) : WriteFrame s u := by
  unfold WriteFrame at *
  rw [h', h]

theorem FlashOnly.writeFrame {s t : State} (h : FlashOnly s t) : WriteFrame s t := by
  rw [h]
  rfl

theorem WriteFrame.setStep {s t : State} (k : StepReg) (h : FlashOnly (s.setStep k) t) : WriteFrame s t :=
  .trans s (s.setStep k) t rfl h.writeFrame

theorem writeStep1_writeFrame (b : Page) (s : State) : WriteFrame s (writeStep1 b s).state := by
  rw [writeStep1, Res.state_orProgramError]
  exact .setStep .s1 (erasePage_flashOnly _ _)

theorem writeStep2_writeFrame (s : State) : WriteFrame s (writeStep2 s).state := by
  rw [writeStep2]
  rcases unlockFlash_cases (s.setStep .s2) with ⟨_, h⟩ | ⟨_, h⟩ | ⟨_, h⟩ <;> rw [h] <;> rfl

theorem writeStep5_writeFrame (a b : Page) (s : State) : WriteFrame s (writeStep5 a b s).state :=
  .setStep .s5 (Res.rel_forEach FlashOnly.refl FlashOnly.trans (fun off _ s => streamHalf_flashOnly a b off s) _)

theorem writeStep6_writeFrame (b : Page) (s : State) : WriteFrame s (writeStep6 b s).state := by
  have hloaded : WriteFrame s ((s.setStep .s6).loadAcc b) := by
    rw [State.loadAcc]
    generalize (s.setStep .s6).csumCompute b = v
    rfl
  rw [writeStep6, Res.state_orProgramError]
  exact hloaded.trans _ _ _ (writeU16_flashOnly _ _ _).writeFrame

theorem writeSteps_writeFrame (a b : Page) (s : State) : WriteFrame s (writeSteps a b s).state :=
  Res.rel_andThen WriteFrame.trans (writeStep1_writeFrame b s) fun _ s _ =>
  Res.rel_andThen WriteFrame.trans (writeStep2_writeFrame s) fun _ _ _ =>
  Res.rel_andThen WriteFrame.trans (.setStep .s3 (setPageState_flashOnly a .copy _)) fun _ _ _ =>
  Res.rel_andThen WriteFrame.trans (.setStep .s4 (setPageState_flashOnly b .write _)) fun _ s _ =>
  Res.rel_andThen WriteFrame.trans (writeStep5_writeFrame a b s) fun _ s _ =>
  Res.rel_andThen WriteFrame.trans (writeStep6_writeFrame b s) fun _ _ _ =>
  Res.rel_andThen WriteFrame.trans (.setStep .s7 (setPageState_flashOnly b .valid _)) fun _ _ _ =>
  Res.rel_andThen WriteFrame.trans (.setStep .s8 (setPageState_flashOnly a .invalid _)) fun _ s _ =>
  Res.rel_andThen (r := writeStep9 a b s) WriteFrame.trans rfl fun _ _ _ => rfl

/-- Completion writes `STEP`, `STATUS` and `BUSY` over what the steps have left. -/
theorem WriteFrame.complete {s t : State} (h : WriteFrame s t) (k : Status) :
    t.complete k =
      { s with
        active := t.active, inactive := t.inactive, step := .idle, acc := t.acc, lock := t.lock, fbusy := t.fbusy
        flash := t.flash, draws := t.draws, drawn := t.drawn, status := k, busy := false } :=
  congrArg (State.complete · k) h

/-! ### ACC holds the new checksum from step 6 on (log entry 22) -/

theorem FlashOnly.acc {s t : State} (h : FlashOnly s t) : t.acc = s.acc := by rw [h]

/-- A program that is done has succeeded. -/
theorem program_eq_done {x : Nat} {v : Half} {s t : State} (h : (writeU16 x v s).orProgramError = .done () t) :
    t = s.popDraw.programHalf x v := by
  rcases writeU16_cases x v s with ⟨_, hw⟩ | ⟨_, _, ⟨_, hw⟩ | ⟨_, hw⟩ | ⟨_, hw⟩ | ⟨_, hw⟩ | ⟨_, hw⟩⟩ <;> rw [hw] at h
  · cases h
  · cases h; rfl
  · cases h
  · revert h
    unfold noCompletion
    split <;> intro h <;> cases h
  · cases h
  · cases h

theorem writeStep6_acc {b : Page} {s t : State} (h : writeStep6 b s = .done () t) : t.acc = t.csumStored b := by
  obtain rfl := program_eq_done h
  exact (State.readU16_programHalf_self _ (checksumAddr s.cfg b) (s.csumCompute b)).symm

/-- Marking a page keeps `ACC` and the stored checksum of either page. -/
theorem markStep_acc {k : StepReg} {p q : Page} {target : PageState} {s t : State} (hl : legalConfig s.cfg = true)
    (h : setPageState p target (s.setStep k) = .done () t) (hs : s.acc = s.csumStored q) : t.acc = t.csumStored q := by
  have hm := setPageState_marked p target (s.setStep k)
  rw [h] at hm
  have hacc : t.acc = s.acc := hm.registers.acc
  have hstored : t.csumStored q = s.csumStored q :=
    State.csumStored_congr (s := s) hm.registers.cfg (hm.pageByte hl q (Nat.lt_add_of_pos_right Nat.two_pos))
      (hm.pageByte hl q (Nat.lt_succ_self _))
  rw [hacc, hs, hstored]

/-! ### Steps 4 to 10 -/

/-- What the ten steps of the `WRITE` begun in `m` with page `a` active leave once all of them are done (R183 to
R186). -/
structure Swapped (m : State) (a : Page) (s : State) : Prop where
  new : HoldsNew m a s
  valid : s.pageState (otherPage a) = .valid
  retired : s.pageState a = .invalid
  designated : s.activeIs (otherPage a)
  locked : s.lock = .locked
  acc : s.acc = s.csumCompute (otherPage a)

/-- What is known of a part that is done, besides. -/
theorem Res.DoneOrStopped.and_done {m : State} {done extra : State → Prop} {P : Nat → State → Prop} {r : Res Unit}
    (h : r.DoneOrStopped m done P) (he : ∀ t, r = .done () t → extra t) :
    r.DoneOrStopped m (fun t => done t ∧ extra t) P := by
  cases r with
  | done _ t => exact ⟨h, he t rfl⟩
  | _ => exact h

section
variable {m s : State} {a : Page} {k c : Nat}

/-- The state the last two steps make of the one step 8 leaves (R185, R186). -/
def State.swapped (s : State) (a : Page) : State :=
  (((s.setStep .s9).setDesignation (designatorOf (otherPage a)) (designatorOf a)).setStep .s10).lockFlash

theorem State.swapped_sameStore (s : State) (a : Page) : SameStore s (s.swapped a) := ⟨rfl, rfl, rfl⟩

theorem Counted.swapped (h : Counted m a k 4 2 (HoldsNew m a) s) (hacc : s.acc = s.csumStored (otherPage a)) :
    Swapped m a (s.swapped a) where
  new := HoldsNew.ofOtherBytes m a s _ h.underWay.kept.cfg h.underWay.kept.cfg (fun _ _ => rfl) h.holds
  valid := ((s.swapped_sameStore a).pageState _).trans
    ((s.pageState_eq_iff_zeroFields _ (t := .valid) (by decide)).mpr h.underWay.otherFields)
  retired := ((s.swapped_sameStore a).pageState _).trans
    ((s.pageState_eq_iff_zeroFields _ (t := .invalid) (by decide)).mpr h.underWay.fields)
  designated := ⟨rfl, by rw [otherPage_otherPage]; rfl⟩
  locked := rfl
  acc := (hacc.trans ((s.csumIntact_iff _).mp h.holds.intact)).trans ((s.swapped_sameStore a).csumCompute _).symm

/-- Steps 4 to 10, from a page that step 3 has marked (R179 to R186). -/
theorem writeStepsFrom4_doneOrStopped (hl : legalConfig m.cfg = true) (hc : c ≤ 3)
    (h : Counted m a (5 - c) 3 0 (HoldsMerged m a 0) s) :
    ((writeStep4 (otherPage a) s).andThen fun _ s => (writeStep5 a (otherPage a) s).andThen fun _ s =>
      (writeStep6 (otherPage a) s).andThen fun _ s => (writeStep7 (otherPage a) s).andThen fun _ s =>
      (writeStep8 a s).andThen fun _ s => (writeStep9 a (otherPage a) s).andThen fun _ s =>
      writeStep10 s).DoneOrStopped m (Swapped m a) (StoppedStore m a c) := by
  have hbound := m.programmed_le a (payloadSize m.cfg / 2)
  refine (writeStep4_stoppedStore hl hc h (HoldsMerged.ofOtherBytes m a 0)).andThen fun _ h4 => ?_
  refine (writeStep5_stoppedStore hl hc h4).andThen fun _ h5 => ?_
  refine ((writeStep6_stoppedStore hl h5 (by omega) (by omega)).and_done fun _ => writeStep6_acc).andThen ?_
  rintro s6 ⟨h6, hacc6⟩
  refine ((writeStep7_stoppedStore hl h6 (by omega)).and_done fun _ hd =>
    markStep_acc (h6.underWay.legal hl) hd hacc6).andThen ?_
  rintro s7 ⟨h7, hacc7⟩
  refine ((writeStep8_stoppedStore hl h7 (by omega)).and_done fun _ hd =>
    markStep_acc (h7.underWay.legal hl) hd hacc7).andThen ?_
  rintro s8 ⟨h8, hacc8⟩
  exact h8.swapped hacc8

end

/-! ### Step 3 from a page it can mark -/

section
variable {m s t : State} {p a : Page} {j k n : Nat}

/-- The fields of a page are read from the bytes of that page (R52, R53). -/
theorem State.readField_congr (hl : legalConfig s.cfg = true) (hc : t.cfg = s.cfg)
    (hf : ∀ b, inPage s.cfg p b → t.flash.read b = s.flash.read b) (hk : k < 4) :
    t.readU16 (fieldAddr t.cfg p k) = s.readU16 (fieldAddr s.cfg p k) := by
  have hsize := payloadSize_add s.cfg hl
  have hin (d : Nat) (hd : d < 2) : inPage s.cfg p (fieldAddr s.cfg p k + d) := by
    simp only [inPage, fieldAddr]; omega
  have hlo := hf _ (hin 0 (by decide))
  rw [Nat.add_zero] at hlo
  rw [State.readU16_eq, State.readU16_eq, hc, hlo, hf _ (hin 1 (by decide))]

theorem State.markable.congr (h : s.markable p) (hl : legalConfig s.cfg = true) (hc : t.cfg = s.cfg)
    (hf : ∀ b, inPage s.cfg p b → t.flash.read b = s.flash.read b) : t.markable p := by
  obtain ⟨hlast, hfirst⟩ := h
  refine ⟨(State.readField_congr hl hc hf (by decide)).trans hlast, fun k hk => ?_⟩
  rw [State.readField_congr hl hc hf (by omega)]
  exact hfirst k hk

/-- A page one of whose fields has been written is markable still. -/
theorem State.markable.programHalf (h : s.markable p) (hj : j < 3) :
    (s.programHalf (fieldAddr s.cfg p j) 0x0000).markable p := by
  have hother {k : Nat} (hk : k ≠ j) :
      (s.programHalf (fieldAddr s.cfg p j) 0x0000).readU16 (fieldAddr s.cfg p k) = s.readU16 (fieldAddr s.cfg p k) :=
    s.readU16_programHalf_other _ _ _ (by simp only [fieldAddr]; omega)
  obtain ⟨hlast, hfirst⟩ := h
  refine ⟨(hother (by omega)).trans hlast, fun k hk => ?_⟩
  by_cases hkj : k = j
  · subst hkj; exact .inl (s.readU16_programHalf_self _ _)
  · rw [State.programHalf_cfg, hother hkj]
    exact hfirst k hk

/-- The first `j` fields of page `p` are zero. -/
def State.startsZero (s : State) (p : Page) (j : Nat) : Prop := ∀ i < j, s.readU16 (fieldAddr s.cfg p i) = 0x0000

theorem State.startsZero.succ (h : s.startsZero p j) (hj : s.readU16 (fieldAddr s.cfg p j) = 0x0000) :
    s.startsZero p (j + 1) := fun i hi =>
  (Nat.lt_succ_iff_lt_or_eq.mp hi).elim (h i) fun he => by rw [he, hj]

theorem State.startsZero.programHalf (h : s.startsZero p j) :
    (s.programHalf (fieldAddr s.cfg p j) 0x0000).startsZero p (j + 1) := by
  refine State.startsZero.succ (fun i hi => ?_) (s.readU16_programHalf_self _ _)
  exact (s.readU16_programHalf_other _ _ _ (by simp only [fieldAddr, State.programHalf_cfg]; omega)).trans (h i hi)

theorem State.startsZero.held (h : s.startsZero p j) (hj : j ≤ 3) :
    ∀ i < j, s.readU16 (fieldAddr s.cfg p i) = targetField .copy i := fun i hi => by
  rw [h i hi, targetField_of_lt (show i < 3 by omega)]

theorem State.startsZero.zeroFields (h : s.startsZero p 3) (hlast : s.readU16 (fieldAddr s.cfg p 3) = 0xFFFF) :
    s.zeroFields p 3 := fun i hi => by
  by_cases hi3 : i < 3
  · rw [h i hi3, if_pos hi3]
  · rw [show i = 3 by omega, hlast, if_neg (Nat.lt_irrefl 3)]

/-- The COPY mark from a markable page whose first `j` fields are zero: one program for each of the other `n` but `c`,
which are zero too (R126, R178). -/
theorem setPageState_of_markable (hn : j + n = 3) (hz : s.startsZero p j) (h : s.markable p) (hl : s.lock = .unlocked)
    (hd : CallsDone m k s) (hq : m.quiet (k + n)) :
    ∃ t c, c ≤ n ∧ setPageState p .copy s = .done () t ∧ t.zeroFields p 3 ∧ CallsDone m (k + n - c) t := by
  induction n generalizing j k s with
  | zero =>
    obtain rfl : j = 3 := hn
    have hzero := hz.zeroFields h.1
    exact ⟨s, 0, le_rfl, setPageState_of_same hzero, hzero, hd⟩
  | succ n ih =>
    rcases h.2 j (by omega) with hfield | hfield
    · obtain ⟨t, c, hc, hdone, hzero, hd'⟩ := ih (by omega) (hz.succ hfield) h hl hd fun i hi => hq i (by omega)
      exact ⟨t, c + 1, by omega, hdone, hzero, by rwa [show k + (n + 1) - (c + 1) = k + n - c by omega]⟩
    · have hk : s.nextDraw.kind = .doneOk := by rw [hd.nextDraw]; exact hq k (by omega)
      have hz' := State.startsZero.programHalf (s := s.popDraw) hz
      have hm' := State.markable.programHalf (s := s.popDraw) h (show j < 3 by omega)
      obtain ⟨t, c, hc, hdone, hzero, hd'⟩ := ih (by omega) hz' hm' hl ((hd.popDraw hk).congr rfl rfl)
        fun i hi => hq i (by omega)
      refine ⟨t, c, by omega, ?_, hzero, by rwa [show k + (n + 1) - c = k + 1 + n - c by omega]⟩
      rw [← hdone]
      exact setPageState_of_done (by omega) (hz.held (by omega)) (setField_of_erased (show j < 3 by omega) hfield hl hk)
        (hz'.held (by omega))

/-- Steps 1 to 3 from a markable page, absent hardware error (R176 to R178). -/
theorem writeStep3_of_markable (hl : legalConfig m.cfg = true) (hm : m.markable a) (hq : m.quiet 5) :
    ∃ t c, c ≤ 3 ∧ writeStep3 a (m.beforeMark (otherPage a)) = .done () t ∧
      Counted m a (5 - c) 3 0 (HoldsMerged m a 0) t := by
  have hsize := payloadSize_add m.cfg hl
  have hread : ∀ b, inPage m.cfg a b → (m.beforeMark (otherPage a)).flash.read b = m.flash.read b := fun b hb =>
    m.read_clearPage_other (otherPage a) fun hb' => not_inPage_both m.cfg hl a b hb hb'
  have herased {o : Nat} (ho : o < m.cfg.pageSize) : (m.beforeMark (otherPage a)).pageByte (otherPage a) o = 0xFF :=
    m.pageByte_clearPage (otherPage a) ho
  have hcalls : CallsDone m 2 (m.beforeMark (otherPage a)) := ⟨fun i hi => hq i (by omega), rfl, rfl⟩
  obtain ⟨t, c, hc, hdone, hzero, hd⟩ := setPageState_of_markable (s := (m.beforeMark (otherPage a)).setStep .s3)
    (p := a) (j := 0) (n := 3) rfl (fun i hi => absurd hi (Nat.not_lt_zero i))
    (hm.congr (t := (m.beforeMark (otherPage a)).setStep .s3) hl rfl hread) rfl (hcalls.congr rfl rfl) hq
  have hmarked := setPageState_marked a .copy ((m.beforeMark (otherPage a)).setStep .s3)
  rw [hdone] at hmarked
  refine ⟨t, c, hc, hdone, ⟨⟨?_, hmarked.registers.lock, fun o ho => ?_, hzero, ?_⟩, hd, fun o ho => ?_⟩⟩
  · exact Kept.trans (t := (m.beforeMark (otherPage a)).setStep .s3) ⟨rfl, rfl, rfl, rfl, rfl, rfl, rfl, rfl, rfl⟩
      hmarked.registers.kept
  · exact (hmarked.pageByte hl a ho).trans (hread _ ⟨Nat.le_add_right _ _, Nat.add_lt_add_left (by omega) _⟩)
  · exact hmarked.zeroFields_other hl ((State.pageState_eq_iff_zeroFields _ _ (t := .erased) (by decide)).mp
      (State.pageState_of_erased hl fun _ => herased))
  · exact (hmarked.pageByte hl _ ho).trans ((herased (by omega)).trans (if_neg (Nat.not_lt_zero o)).symm)

/-- The ten steps from a markable page, absent hardware error (R172). -/
theorem writeSteps_of_markable (hl : legalConfig m.cfg = true) (hm : m.markable a)
    (hq : m.quiet (payloadSize m.cfg / 2 + 9)) :
    ∃ t, writeSteps a (otherPage a) m = .done () t ∧ Swapped m a t := by
  obtain ⟨s3, c, hc, hstep3, h3⟩ := writeStep3_of_markable hl hm fun i hi => hq i (by omega)
  have h0 : m.nextDraw.kind = .doneOk := by rw [State.nextDraw_eq_drawAt]; exact hq 0 (by omega)
  have h1 : (m.afterStep1 (otherPage a)).nextDraw.kind = .doneOk := by
    rw [State.nextDraw_eq_drawAt, show (m.afterStep1 (otherPage a)).drawAt 0 = m.drawAt 1 from m.drawAt_popDraw 0]
    exact hq 1 (by omega)
  rw [writeSteps, writeStep1_of_doneOk _ h0, Res.andThen_done, writeStep2_of_doneOk h1, Res.andThen_done,
    State.afterStep2_afterStep1, hstep3, Res.andThen_done]
  rcases (writeStepsFrom4_doneOrStopped hl hc h3).cases with hdone | ⟨k, _, hk, ⟨hbound, _⟩, _⟩
  · exact hdone
  · exact absurd (hq k hbound) hk

end

/-! ### The whole command -/

section
variable {s t : State} {a : Page} {addr : Nat} {data : List Byte}

/-- The registers a `WRITE` leaves whose ten steps are done (R26, R185, R186). -/
theorem Swapped.complete (h : WriteAllowed s a addr data.length data)
    (hr : writeSteps a (otherPage a) (s.beginWrite addr data.length data) = .done () t)
    (ht : Swapped (s.beginWrite addr data.length data) a t) :
    t.complete .ok = { s.afterWrite addr data .ok with
      active := designatorOf (otherPage a)
      inactive := designatorOf a
      lock := .locked
      acc := (t.complete .ok).csumCompute (otherPage a)
      flash := (t.complete .ok).flash
      draws := (t.complete .ok).draws
      drawn := (t.complete .ok).drawn } := by
  have hframe := writeSteps_writeFrame a (otherPage a) (s.beginWrite addr data.length data)
  have hfbusy := Course.fbusy (writeSteps_along (i := .write addr data.length data)
    (s₀ := s.beginWrite addr data.length data) (s := s.beginWrite addr data.length data) rfl h.ready.1 a (otherPage a)
    h.designated.1 h.designated.2) (by rw [hr]; exact nofun)
  rw [hr, Res.state_done] at hframe hfbusy
  have hsum : (t.complete .ok).csumCompute (otherPage a) = t.csumCompute (otherPage a) :=
    SameStore.csumCompute ⟨rfl, rfl, rfl⟩ _
  obtain ⟨hactive, hinactive⟩ := ht.designated
  rw [otherPage_otherPage] at hinactive
  rw [hsum, hframe.complete, hactive, hinactive, ht.locked, ht.acc, hfbusy]
  generalize t.csumCompute (otherPage a) = v
  rfl

/-- The count of the statements is the one of the steps: the data are the `LEN` bytes of the frame (R180). -/
theorem State.programmed_beginWrite (s : State) (a : Page) (addr : Nat) (data : List Byte) (j : Nat) :
    (s.beginWrite addr data.length data).programmed a j = s.halvesToProgram a addr data j := by
  simp only [State.programmed, State.halvesToProgram, State.merged_beginWrite]

end

end Sys2Proof.Machine
end

section
/-! The statements of spec 43_arbiter_write.md about a `WRITE` absent hardware error. -/

namespace Sys2Proof.Proofs

open Sys2Proof Sys2Proof.Machine

/-- Settles O38: the ten steps are done, and what they spare is what every `WRITE` spares. -/
theorem writeMergesIntoOtherPage : Obligations.WriteMergesIntoOtherPage := by
  intro s a addr len data h hmarkable hq
  obtain rfl := h.dataLength
  obtain ⟨t, ht, hswapped⟩ :=
    writeSteps_of_markable (m := s.beginWrite addr data.length data) h.ready.1 hmarkable hq
  obtain ⟨hrun, _, _⟩ := exec_write_of_done h ht
  obtain ⟨hold, hout⟩ := writeNeverTouchesActivePayload s _ a _ rfl h.designated hrun
  have hsame : SameStore t (t.complete .ok) := ⟨rfl, rfl, rfl⟩
  exact ⟨_, hrun, fun o ho => (hswapped.new.payload o ho).trans (s.merged_beginWrite a addr data o),
    (hsame.pageState _).trans hswapped.valid, (hsame.csumIntact _).trans hswapped.new.intact,
    (hsame.pageState _).trans hswapped.retired, hold, hout, hswapped.complete h ht⟩

/-- Settles O41: steps 3 and 8 each write one field of a VALID page, and steps 4 and 7 one of the other page each. -/
theorem writeCountsFlashOperations : Obligations.WriteCountsFlashOperations := by
  intro s t a addr len data h hvalid hq hrun
  obtain rfl := h.dataLength
  have hzero : s.zeroFields a 2 := (s.pageState_eq_iff_zeroFields a (t := .valid) (by decide)).mp hvalid
  rcases (writeSteps_doneOrStopped (m := s.beginWrite addr data.length data) h.ready.1 hzero (by decide)).cases with
    ⟨u, hu, hdone⟩ | ⟨k, _, hk, ⟨hbound, _⟩, _⟩
  · rw [(exec_write_of_done h hu).1] at hrun
    cases hrun
    have hdrawn := hdone.calls.drawn
    rw [State.programmed_beginWrite] at hdrawn
    rw [Nat.add_assoc]
    exact hdrawn
  · exact absurd (hq k hbound) hk

end Sys2Proof.Proofs
end

section
/-! SUPPORT. A `WRITE` from a VALID page that meets power loss at one of its calls: which call that is, and what flash
holds when it begins (spec 43_arbiter_write.md R176 to R188, R192; 70_reset_and_hazards.md R242, R243). -/

namespace Sys2Proof.Machine

/-! ### What flash holds before a call -/

/-- Flash where call `n` of the `WRITE` begun in `m` begins, page `a` being VALID at its start: call 0 erases the other
page, 1 unlocks, 2 marks `a` COPY, 3 marks the other page WRITE, then come the halfwords that are not all ones, the
checksum, the VALID mark and the INVALID mark. -/
structure BeforeCall (m : State) (a : Page) (n : Nat) (s : State) : Prop where
  fields : s.zeroFields a (if n ≤ 2 then 2 else 3)
  otherFields : s.zeroFields (otherPage a)
    (if n ≤ 3 then 0 else if n ≤ 5 + m.programmed a (payloadSize m.cfg / 2) then 1 else 2)
  halves : ∀ k < payloadSize m.cfg / 2,
    s.pageByte (otherPage a) (2 * k) = (if m.programmed a k < n - 4 then m.merged a (2 * k) else 0xFF) ∧
    s.pageByte (otherPage a) (2 * k + 1) = (if m.programmed a k < n - 4 then m.merged a (2 * k + 1) else 0xFF)
  stored : s.csumStored (otherPage a) =
    if n ≤ 4 + m.programmed a (payloadSize m.cfg / 2) then 0xFFFF else s.csumCompute (otherPage a)

theorem State.programmed_mono (m : State) (a : Page) : Monotone (m.programmed a) :=
  monotone_nat_of_le_succ fun j => by rw [m.programmed_succ]; exact Nat.le_add_right _ _

section
variable {m s t : State} {a : Page} {i j k n q : Nat}

/-- A halfword before position `q` that is not programmed is all ones already. -/
theorem HoldsMerged.halves (h : HoldsMerged m a (2 * q) s) (hk : k < payloadSize m.cfg / 2) :
    s.pageByte (otherPage a) (2 * k) =
        (if m.programmed a k < m.programmed a q then m.merged a (2 * k) else 0xFF) ∧
      s.pageByte (otherPage a) (2 * k + 1) =
        (if m.programmed a k < m.programmed a q then m.merged a (2 * k + 1) else 0xFF) := by
  rw [h (2 * k) (by omega), h (2 * k + 1) (by omega)]
  rcases Nat.lt_or_ge k q with hkq | hkq
  · have hle : m.programmed a (k + 1) ≤ m.programmed a q := m.programmed_mono a hkq
    rw [m.programmed_succ] at hle
    rw [if_pos (show 2 * k < 2 * q by omega), if_pos (show 2 * k + 1 < 2 * q by omega)]
    split at hle
    next hones => simp only [hones, ite_self, and_self]
    next => rw [if_pos (by omega), if_pos (by omega)]; exact ⟨rfl, rfl⟩
  · have hle : m.programmed a q ≤ m.programmed a k := m.programmed_mono a hkq
    rw [if_neg (by omega), if_neg (by omega), if_neg (by omega), if_neg (by omega)]
    exact ⟨rfl, rfl⟩

/-- Until the checksum is programmed its halfword is erased. -/
theorem HoldsMerged.csumStored (h : HoldsMerged m a k s) (hc : s.cfg = m.cfg) (hk : k ≤ payloadSize m.cfg) :
    s.csumStored (otherPage a) = 0xFFFF := by
  refine s.csumStored_of_erased _ ?_ ?_ <;> rw [hc, h _ (by omega), if_neg (by omega)]

/-- Before a call up to the one that programs the checksum: step 5 has come to position `q`. -/
theorem HoldsMerged.beforeCall (h : HoldsMerged m a (2 * q) s) (hc : s.cfg = m.cfg) (hq : q ≤ payloadSize m.cfg / 2)
    (hn : n - 4 = m.programmed a q) (hz : s.zeroFields a (if n ≤ 2 then 2 else 3))
    (hz' : s.zeroFields (otherPage a) (if n ≤ 3 then 0 else 1)) : BeforeCall m a n s := by
  have hle : m.programmed a q ≤ m.programmed a (payloadSize m.cfg / 2) := m.programmed_mono a hq
  refine ⟨hz, ?_, fun k hk => ?_, ?_⟩
  · rwa [if_pos (show n ≤ 5 + m.programmed a (payloadSize m.cfg / 2) by omega)]
  · rw [hn]; exact h.halves hk
  · rw [h.csumStored hc (by omega), if_pos (by omega)]

/-- Before the calls of steps 7 and 8. -/
theorem HoldsNew.beforeCall (h : HoldsNew m a s) (hn : 5 + m.programmed a (payloadSize m.cfg / 2) ≤ n)
    (hz : s.zeroFields a 3)
    (hz' : s.zeroFields (otherPage a) (if n ≤ 5 + m.programmed a (payloadSize m.cfg / 2) then 1 else 2)) :
    BeforeCall m a n s := by
  refine ⟨?_, ?_, fun k hk => ?_, ?_⟩
  · rw [if_neg (show ¬ n ≤ 2 by omega)]; exact hz
  · rwa [if_neg (show ¬ n ≤ 3 by omega)]
  · have hle : m.programmed a k ≤ m.programmed a (payloadSize m.cfg / 2) := m.programmed_mono a hk.le
    rw [h.payload _ (by omega), h.payload _ (by omega), if_pos (by omega), if_pos (by omega)]
    exact ⟨rfl, rfl⟩
  · rw [if_neg (by omega)]
    exact (s.csumIntact_iff _).mp h.intact

theorem BeforeCall.setStep (h : BeforeCall m a n s) (k : StepReg) : BeforeCall m a n (s.setStep k) :=
  ⟨h.fields, h.otherFields, h.halves, h.stored⟩

theorem BeforeCall.pageState (h : BeforeCall m a n s) : s.pageState a = if n ≤ 2 then .valid else .copy := by
  have hfields := h.fields
  split at hfields
  next hn => rw [if_pos hn]; exact (s.pageState_eq_iff_zeroFields a (by decide)).mpr hfields
  next hn => rw [if_neg hn]; exact (s.pageState_eq_iff_zeroFields a (by decide)).mpr hfields

theorem BeforeCall.pageState_other (h : BeforeCall m a n s) :
    s.pageState (otherPage a) =
      if n ≤ 3 then .erased else if n ≤ 5 + m.programmed a (payloadSize m.cfg / 2) then .write else .valid := by
  have hfields := h.otherFields
  split at hfields
  next hn => rw [if_pos hn]; exact (s.pageState_eq_iff_zeroFields _ (by decide)).mpr hfields
  next hn =>
    rw [if_neg hn]
    split at hfields
    next hn' => rw [if_pos hn']; exact (s.pageState_eq_iff_zeroFields _ (by decide)).mpr hfields
    next hn' => rw [if_neg hn']; exact (s.pageState_eq_iff_zeroFields _ (by decide)).mpr hfields

/-! ### The call at which power is lost -/

/-- What a power loss at call `n` leaves; where it comes before the call begins, what the call found. -/
structure CutStore (m : State) (a : Page) (n : Nat) (s : State) : Prop where
  drawn : s.drawn = m.drawn + n + 1
  untouched : (m.drawAt n).kind = .cutBefore → n = 0 → s.flash = m.flash
  reached : (m.drawAt n).kind = .cutBefore → 0 < n → BeforeCall m a n s

theorem Res.Meets.cases {r : Res Unit} {done cut : State → Prop} (h : r.Meets done cut) :
    (∃ t, r = .done () t ∧ done t) ∨ ∃ t, r = .powerLost t ∧ cut t := by
  cases r with
  | done _ t => exact .inl ⟨t, rfl, h⟩
  | powerLost t => exact .inr ⟨t, rfl, h⟩
  | raised | hung => exact h.elim

/-- A part known to be done or stopped, that either is done or loses power. -/
theorem Res.DoneOrStopped.meets {r : Res Unit} {done cut : State → Prop} {P : Nat → State → Prop}
    (h : r.DoneOrStopped m done P) (h' : r.Meets (fun _ => True) cut) : r.Meets done cut := by
  cases r with
  | done _ t => exact h
  | _ => exact h'

theorem program_isCut {x : Nat} (v : Half) (hl : s.lock = .unlocked) (he : s.readU16 x = 0xFFFF) (h : s.cutAt 0) :
    ∃ t, writeU16 x v s = .powerLost t ∧ t.drawn = s.drawn + 1 ∧ (s.nextDraw.kind = .cutBefore → t = s.popDraw) := by
  rcases State.cutAt_zero_iff.mp h with hk | hk
  · exact ⟨_, writeU16_of_cutBefore v hl he hk, rfl, fun _ => rfl⟩
  · exact ⟨_, writeU16_of_cutDuring v hl he hk, rfl, fun hb => absurd (hk.symm.trans hb) (by decide)⟩

/-- A call that power loss meets, after call 0. -/
theorem CallsDone.cutStore (h : CallsDone m n s) (hn : 0 < n) (hb : BeforeCall m a n s) (hd : t.drawn = s.drawn + 1)
    (ht : s.nextDraw.kind = .cutBefore → t = s.popDraw) : CutStore m a n t := by
  refine ⟨by rw [hd, h.drawn], fun _ h0 => absurd h0 hn.ne', fun hk _ => ?_⟩
  rw [ht (by rw [h.nextDraw]; exact hk)]
  exact ⟨hb.fields, hb.otherFields, hb.halves, hb.stored⟩

section
variable (hq : m.quiet n) (hcut : m.cutAt n)
include hq hcut

/-- A call after calls that have succeeded either succeeds too or is the one that power loss meets. -/
theorem CallsDone.ok_or_cut (h : CallsDone m k s) : s.nextDraw.kind = .doneOk ∨ (k = n ∧ s.cutAt 0) := by
  rw [State.cutAt_zero_iff, h.nextDraw]
  rcases Nat.lt_trichotomy k n with hlt | rfl | hlt
  · exact .inl (hq k hlt)
  · exact .inr ⟨rfl, hcut⟩
  · have hok := h.quiet n hlt
    rcases hcut with hk | hk <;> rw [hk] at hok <;> cases hok

/-- A program of an erased halfword. -/
theorem program_cutStore {x : Nat} (v : Half) (h : CallsDone m k s) (hk : 0 < k) (hb : BeforeCall m a k s)
    (hl : s.lock = .unlocked) (he : s.readU16 x = 0xFFFF) :
    (writeU16 x v s).orProgramError.Meets (fun _ => True) (CutStore m a n) := by
  rcases h.ok_or_cut hq hcut with hok | ⟨rfl, hc⟩
  · rw [writeU16_ok x v s hl he hok]
    trivial
  · obtain ⟨t, hw, hd, ht⟩ := program_isCut v hl he hc
    rw [hw]
    exact h.cutStore hk hb hd ht

/-- A mark that takes one program. -/
theorem setPageState_cutStore {p : Page} {target : PageState} (hz : s.zeroFields p i)
    (hi : i + 1 = stateNumber target) (h : CallsDone m k s) (hk : 0 < k) (hb : BeforeCall m a k s)
    (hl : s.lock = .unlocked) : (setPageState p target s).Meets (fun _ => True) (CutStore m a n) := by
  have hle := stateNumber_le target
  rcases h.ok_or_cut hq hcut with hok | ⟨rfl, hc⟩
  · have hquiet : s.quiet 1 := fun l hl => by
      rw [show l = 0 by omega, ← State.nextDraw_eq_drawAt]; exact hok
    obtain ⟨t, hdone, _⟩ := setPageState_of_ahead hz hi hl hquiet
    rw [hdone]
    trivial
  · have herased : s.readU16 (fieldAddr s.cfg p i) = 0xFFFF := by rw [hz i (by omega), if_neg (Nat.lt_irrefl i)]
    obtain ⟨t, hw, hd, ht⟩ := program_isCut 0x0000 hl herased hc
    rw [setPageState_of_turn (by omega) (hz.held (by omega)),
      setField_of_program (by omega) (by rw [herased]; decide), hw]
    exact h.cutStore hk hb hd ht

/-! ### The steps -/

theorem writeStep1_cutStore : (writeStep1 (otherPage a) m).Meets (fun _ => True) (CutStore m a n) := by
  rcases (CallsDone.refl m).ok_or_cut hq hcut with hok | ⟨rfl, hc⟩
  · rw [writeStep1_of_doneOk _ hok]
    trivial
  · obtain ⟨t, he, _, hd, _, ht⟩ := erasePage_isCut (base m.cfg (otherPage a)) (m.setStep .s1) hc
    rw [writeStep1, show erasePage _ _ = _ from he]
    exact ⟨hd, fun hk _ => ht hk, fun _ h0 => absurd h0 (Nat.lt_irrefl 0)⟩

theorem writeStep2_cutStore (hl : legalConfig m.cfg = true) (hz : m.zeroFields a 2)
    (h : CallsDone m 1 (m.afterStep1 (otherPage a))) :
    (writeStep2 (m.afterStep1 (otherPage a))).Meets (fun _ => True) (CutStore m a n) := by
  have hsize := payloadSize_add m.cfg hl
  rcases h.ok_or_cut hq hcut with hok | ⟨rfl, hc⟩
  · rw [writeStep2_of_doneOk hok]
    trivial
  · have herased : OtherErased m a 2 ((m.afterStep1 (otherPage a)).setStep .s2) := .of_sameStore ⟨rfl, rfl, rfl⟩ hl hz
    have hmerged : HoldsMerged m a (2 * 0) ((m.afterStep1 (otherPage a)).setStep .s2) := fun o ho => by
      rw [herased.erased o (by omega), if_neg (by omega)]
    have hb : BeforeCall m a 1 ((m.afterStep1 (otherPage a)).setStep .s2) :=
      hmerged.beforeCall rfl (Nat.zero_le _) rfl herased.fields
        ((State.pageState_eq_iff_zeroFields _ _ (t := .erased) (by decide)).mp (herased.pageState hl rfl))
    have hlost : unlockFlash ((m.afterStep1 (otherPage a)).setStep .s2) =
        .powerLost ((m.afterStep1 (otherPage a)).setStep .s2).popDraw := by
      rcases State.cutAt_zero_iff.mp hc with hk | hk <;>
        rw [unlockFlash, show ((m.afterStep1 (otherPage a)).setStep .s2).nextDraw.kind = _ from hk]
    rw [writeStep2, hlost]
    exact CallsDone.cutStore (s := (m.afterStep1 (otherPage a)).setStep .s2) (h.congr rfl rfl) Nat.one_pos hb rfl
      fun _ => rfl

/-! #### The four marks: each finds its page one program short -/

theorem writeStep3_cutStore (h : Counted m a 2 2 0 (HoldsMerged m a 0) s) :
    (writeStep3 a s).Meets (fun _ => True) (CutStore m a n) :=
  have hs := h.setStep (HoldsMerged.ofOtherBytes m a 0) .s3
  setPageState_cutStore hq hcut hs.underWay.fields rfl hs.calls (by decide)
    (hs.holds.beforeCall (n := 2) (q := 0) hs.underWay.kept.cfg (Nat.zero_le _) rfl hs.underWay.fields
      hs.underWay.otherFields) hs.underWay.unlocked

theorem writeStep4_cutStore (h : Counted m a 3 3 0 (HoldsMerged m a 0) s) :
    (writeStep4 (otherPage a) s).Meets (fun _ => True) (CutStore m a n) :=
  have hs := h.setStep (HoldsMerged.ofOtherBytes m a 0) .s4
  setPageState_cutStore hq hcut hs.underWay.otherFields rfl hs.calls (by decide)
    (hs.holds.beforeCall (n := 3) (q := 0) hs.underWay.kept.cfg (Nat.zero_le _) rfl hs.underWay.fields
      hs.underWay.otherFields) hs.underWay.unlocked

theorem writeStep7_cutStore (h : Counted m a (5 + m.programmed a (payloadSize m.cfg / 2)) 3 1 (HoldsNew m a) s) :
    (writeStep7 (otherPage a) s).Meets (fun _ => True) (CutStore m a n) :=
  have hs := h.setStep (HoldsNew.ofOtherBytes m a) .s7
  setPageState_cutStore hq hcut hs.underWay.otherFields rfl hs.calls (by omega)
    (hs.holds.beforeCall le_rfl hs.underWay.fields (by rw [if_pos le_rfl]; exact hs.underWay.otherFields))
    hs.underWay.unlocked

theorem writeStep8_cutStore (h : Counted m a (6 + m.programmed a (payloadSize m.cfg / 2)) 3 2 (HoldsNew m a) s) :
    (writeStep8 a s).Meets (fun _ => True) (CutStore m a n) :=
  have hs := h.setStep (HoldsNew.ofOtherBytes m a) .s8
  setPageState_cutStore hq hcut hs.underWay.fields rfl hs.calls (by omega)
    (hs.holds.beforeCall (by omega) hs.underWay.fields (by rw [if_neg (by omega)]; exact hs.underWay.otherFields))
    hs.underWay.unlocked

/-! #### Steps 5 and 6 -/

theorem streamHalf_cutStore (hl : 2 * q + 1 < payloadSize m.cfg)
    (h : Counted m a (4 + m.programmed a q) 3 1 (HoldsMerged m a (2 * q)) s) :
    (streamHalf a (otherPage a) (2 * q) s).Meets (fun _ => True) (CutStore m a n) := by
  have hu := h.underWay
  have hb : BeforeCall m a (4 + m.programmed a q) s :=
    h.holds.beforeCall hu.kept.cfg (by omega) (Nat.add_sub_cancel_left _ _) (by rw [if_neg (by omega)]; exact hu.fields)
      (by rw [if_neg (by omega)]; exact hu.otherFields)
  have herased : s.readU16 (base m.cfg (otherPage a) + 2 * q) = 0xFFFF := by
    rw [hu.readU16_other, h.holds (2 * q) (by omega), h.holds (2 * q + 1) (by omega), if_neg (Nat.lt_irrefl _),
      if_neg (Nat.not_succ_lt_self), composeHalf_erased]
  rw [streamHalf, hu.kept.cfg]
  split
  · exact program_cutStore hq hcut _ h.calls (by omega) hb hu.unlocked herased
  · trivial

section
variable (hl : legalConfig m.cfg = true)
include hl

theorem writeStep5_meetsCut (h : Counted m a 4 3 1 (HoldsMerged m a 0) s) :
    (writeStep5 a (otherPage a) s).Meets
      (Counted m a (4 + m.programmed a (payloadSize m.cfg / 2)) 3 1 (HoldsMerged m a (payloadSize m.cfg)))
      (CutStore m a n) := by
  have heven : 2 * (payloadSize m.cfg / 2) = payloadSize m.cfg := by
    have := payloadSize_even m.cfg hl
    omega
  have hpass := Res.Meets.forEach_range (part := streamHalf a (otherPage a)) (f := (2 * ·)) (cut := CutStore m a n)
    (I := fun q => Counted m a (4 + m.programmed a q) 3 1 (HoldsMerged m a (2 * q))) (n := payloadSize m.cfg / 2)
    (fun q hq' u hu => (streamHalf_stoppedStore (c := 2) hl (by decide) (by omega) hu).meets
      (streamHalf_cutStore hq hcut (by omega) hu))
    (h.setStep (HoldsMerged.ofOtherBytes m a 0) .s5)
  rw [heven] at hpass
  rw [writeStep5, halfOffsets, h.underWay.kept.cfg]
  exact hpass

theorem writeStep6_cutStore
    (h : Counted m a (4 + m.programmed a (payloadSize m.cfg / 2)) 3 1 (HoldsMerged m a (payloadSize m.cfg)) s) :
    (writeStep6 (otherPage a) s).Meets (fun _ => True) (CutStore m a n) := by
  have hu := h.underWay
  have heven : payloadSize m.cfg = 2 * (payloadSize m.cfg / 2) := by
    have := payloadSize_even m.cfg hl
    omega
  have hmerged : HoldsMerged m a (2 * (payloadSize m.cfg / 2)) s := by
    rw [← heven]; exact h.holds
  have hb : BeforeCall m a (4 + m.programmed a (payloadSize m.cfg / 2)) ((s.setStep .s6).loadAcc (otherPage a)) :=
    HoldsMerged.beforeCall (s := (s.setStep .s6).loadAcc (otherPage a)) hmerged hu.kept.cfg le_rfl
      (Nat.add_sub_cancel_left _ _) (by rw [if_neg (by omega)]; exact hu.fields)
      (by rw [if_neg (by omega)]; exact hu.otherFields)
  have herased : s.readU16 (base m.cfg (otherPage a) + payloadSize m.cfg) = 0xFFFF := by
    rw [hu.readU16_other, h.holds _ (by omega), h.holds _ (by omega), if_neg (Nat.lt_irrefl _),
      if_neg (Nat.not_succ_lt_self), composeHalf_erased]
  rw [writeStep6, checksumAddr, hu.kept.cfg]
  exact program_cutStore hq hcut _ (h.calls.congr rfl rfl) (by omega) hb hu.unlocked herased

/-- The ten steps from a VALID page whose calls succeed up to one that power loss meets: the new store is committed
before there is such a call, or the power loss leaves what is said of that call. -/
theorem writeSteps_meetsCut (hz : m.zeroFields a 2) :
    (writeSteps a (otherPage a) m).Meets (NewStands m a) (CutStore m a n) := by
  have hbound := m.programmed_le a (payloadSize m.cfg / 2)
  have hQ := HoldsMerged.ofOtherBytes m a 0
  refine ((writeStep1_doneOrStopped m a 2 (by decide)).meets (writeStep1_cutStore hq hcut)).andThen ?_
  rintro _ ⟨rfl, hd1⟩
  refine ((writeStep2_stoppedStore hl hz (by decide) hd1).meets (writeStep2_cutStore hq hcut hl hz hd1)).andThen ?_
  rintro _ ⟨rfl, hd2⟩
  have h2 := beforeMark_counted hl hz hd2
  refine ((writeStep3_stoppedStore hl (by decide) h2 hQ).meets (writeStep3_cutStore hq hcut h2)).andThen fun _ h3 => ?_
  refine ((writeStep4_stoppedStore hl (by decide) h3 hQ).meets (writeStep4_cutStore hq hcut h3)).andThen fun _ h4 => ?_
  refine (writeStep5_meetsCut hq hcut hl h4).andThen fun _ h5 => ?_
  have h6' := (writeStep6_stoppedStore (c := 2) hl h5 (by omega) (by omega)).meets (writeStep6_cutStore hq hcut hl h5)
  rw [show 4 + m.programmed a (payloadSize m.cfg / 2) + 1 = 5 + m.programmed a (payloadSize m.cfg / 2) by omega] at h6'
  refine h6'.andThen fun _ h6 => ?_
  have h7' := (writeStep7_stoppedStore (c := 2) hl h6 (by omega)).meets (writeStep7_cutStore hq hcut h6)
  rw [show 5 + m.programmed a (payloadSize m.cfg / 2) + 1 = 6 + m.programmed a (payloadSize m.cfg / 2) by omega] at h7'
  refine h7'.andThen fun _ h7 => ?_
  have h8' := (writeStep8_stoppedStore (c := 2) hl h7 (by omega)).meets (writeStep8_cutStore hq hcut h7)
  refine h8'.andThen fun _ h8 => ?_
  exact (h8.underWay.newStands h8.holds (.inr rfl)).of_sameStore ⟨rfl, rfl, rfl⟩

end

end

end

/-! ### The whole command -/

section
variable {s : State} {a : Page} {addr n : Nat} {data : List Byte}

/-- A `WRITE` from a VALID page of which power is lost at call `n`: it completes with the new store before there is such
a call, or it leaves what is said of that call, with the registers reset. -/
theorem exec_write_of_cutAt (h : WriteAllowed s a addr data.length data) (hvalid : s.pageState a = .valid)
    (hq : s.quiet n) (hcut : s.cutAt n) :
    (∃ t, writeSteps a (otherPage a) (s.beginWrite addr data.length data) = .done () t ∧
        exec (.write addr data.length data) s = .next (t.complete .ok) ∧ (t.complete .ok).ready ∧
        NewStands (s.beginWrite addr data.length data) a (t.complete .ok)) ∨
      ∃ t, writeSteps a (otherPage a) (s.beginWrite addr data.length data) = .powerLost t ∧
        exec (.write addr data.length data) s = .next t.powerCycle ∧ t.powerCycle.ready ∧ t.cfg = s.cfg ∧
        CutStore (s.beginWrite addr data.length data) a n t := by
  have hzero : s.zeroFields a 2 := (s.pageState_eq_iff_zeroFields a (t := .valid) (by decide)).mp hvalid
  have hkept := h.kept
  rcases (writeSteps_meetsCut (m := s.beginWrite addr data.length data) hq hcut h.ready.1 hzero).cases with
    ⟨t, ht, hnew⟩ | ⟨t, ht, hstore⟩
  · obtain ⟨hrun, hready, _⟩ := exec_write_of_done h ht
    exact .inl ⟨t, ht, hrun, hready, hnew.of_sameStore ⟨rfl, rfl, rfl⟩⟩
  · rw [ht] at hkept
    exact .inr ⟨t, ht, exec_write_of_powerLost h ht, ⟨(congrArg legalConfig hkept.cfg).trans h.ready.1, rfl,
      (State.resetInside_congr hkept.inputs).trans h.ready.2.2⟩, hkept.cfg, hstore⟩

end

end Sys2Proof.Machine
end

section
/-! The statements of spec 43_arbiter_write.md and 70_reset_and_hazards.md about a power loss at any call of a `WRITE`
from a VALID page. -/

namespace Sys2Proof.Proofs

open Sys2Proof Sys2Proof.Machine

/-- Settles O42: each call finds what the calls before it have left, and there are `7 + h` of them. -/
theorem writeCallsReachFlashInOrder : Obligations.WriteCallsReachFlashInOrder := by
  intro s a addr len n data h hvalid hq hk hn
  obtain rfl := h.dataLength
  have hzero : s.zeroFields a 2 := (s.pageState_eq_iff_zeroFields a (t := .valid) (by decide)).mp hvalid
  have hcount := s.programmed_beginWrite a addr data
  rcases exec_write_of_cutAt h hvalid hq (.inl hk) with ⟨t, ht, _⟩ | ⟨t, ht, hrun, _, _, hstore⟩
  · have hdone := writeSteps_doneOrStopped (m := s.beginWrite addr data.length data) h.ready.1 hzero (by decide)
    rw [ht] at hdone
    have hok := hdone.calls.quiet n (by rw [hcount]; exact hn)
    rw [show (s.beginWrite addr data.length data).drawAt n = s.drawAt n from rfl, hk] at hok
    cases hok
  · obtain ⟨hold, hout⟩ := writeNeverTouchesActivePayload s _ a _ rfl h.designated hrun
    refine ⟨t.powerCycle, hrun, t.registersReset_powerCycle, hstore.drawn, hstore.untouched hk, fun hpos => ?_⟩
    have hsame : SameStore t t.powerCycle := ⟨rfl, rfl, rfl⟩
    have hbefore := hstore.reached hk hpos
    have hother := hbefore.pageState_other
    obtain ⟨_, _, hhalves, hstored⟩ := id hbefore
    simp only [hcount, State.merged_beginWrite] at hother hhalves hstored
    exact ⟨(hsame.pageState a).trans hbefore.pageState, (hsame.pageState _).trans hother, hhalves,
      (hsame.csumStored _).trans (by rw [hstored, hsame.csumCompute]; rfl), hold, hout⟩

/-- Settles O51: a call torn outside steps 1 and 3 leaves a page that the next `INIT` chooses and finds intact. -/
theorem crashDuringLaterCallsShowsOldOrNew : Obligations.CrashDuringLaterCallsShowsOldOrNew := by
  intro s a addr len n data h hvalid hintact hn0 hn2 hq hk
  obtain rfl := h.dataLength
  have hzero : s.zeroFields a 2 := (s.pageState_eq_iff_zeroFields a (t := .valid) (by decide)).mp hvalid
  have hfailed : (s.drawAt n).kind ≠ .doneOk := by rw [hk]; decide
  have hmerged (o : Nat) : (s.beginWrite addr data.length data).merged a o = s.newByte a addr data o :=
    s.merged_beginWrite a addr data o
  rcases exec_write_of_cutAt h hvalid hq (.inr hk) with ⟨t, _, hrun, hready, hnew⟩ | ⟨t, ht, hrun, hready, hcfg, _⟩
  · obtain ⟨u, hu, hok, hdes, hbytes⟩ := hnew.exec_init hready
    exact ⟨_, u, hrun, hu, hok, .inr ⟨hdes, fun o ho => (hbytes o ho).trans (hmerged o)⟩⟩
  · have hstopped := writeSteps_doneOrStopped (m := s.beginWrite addr data.length data) h.ready.1 hzero (by decide)
    rw [ht] at hstopped
    obtain ⟨k, hqk, hstop, ⟨_, hshows⟩, _⟩ := hstopped
    obtain rfl : k = n := State.quiet.eq_of_stopped (m := s) hq hfailed hqk hstop
    have hsame : SameStore t t.powerCycle := ⟨rfl, rfl, rfl⟩
    rcases hshows (by omega) with hold | hnew
    · obtain ⟨u, hu, hok, hdes, hbytes⟩ := hold.exec_init hsame hready hcfg hintact
      exact ⟨_, u, hrun, hu, hok, .inl ⟨hdes, hbytes⟩⟩
    · obtain ⟨u, hu, hok, hdes, hbytes⟩ := hnew.exec_init hsame hready
      exact ⟨_, u, hrun, hu, hok, .inr ⟨hdes, fun o ho => (hbytes o ho).trans (hmerged o)⟩⟩

end Sys2Proof.Proofs
end

section
/-! SUPPORT. The typed reads: the bytes a `READ` in range returns, and the number that the packing of two and of four
bytes is under each `ACC_ORDER` (spec 44_typed_accessors.md R200 to R203). -/

namespace Sys2Proof.Machine

/-! ### The packing of two and of four bytes -/

theorem toNat_concat8 (hi lo : BitVec 8) : (concat8 hi lo).toNat = hi.toNat * 2 ^ 8 + lo.toNat := by
  rw [concat8, BitVec.toNat_ofNat]
  exact Nat.mod_eq_of_lt (by omega)

theorem toNat_concat16 (hi lo : BitVec 16) : (concat16 hi lo).toNat = hi.toNat * 2 ^ 16 + lo.toNat := by
  rw [concat16, BitVec.toNat_ofNat]
  exact Nat.mod_eq_of_lt (by omega)

section
variable (b0 b1 b2 b3 : Byte)

theorem toNat_pack2_be : (pack2 .be [b0, b1]).toNat = b0.toNat * 2 ^ 8 + b1.toNat :=
  toNat_concat8 b0 b1

theorem toNat_pack2_le : (pack2 .le [b0, b1]).toNat = b0.toNat + b1.toNat * 2 ^ 8 :=
  (toNat_concat8 b1 b0).trans (Nat.add_comm _ _)

theorem toNat_pack4_be :
    (pack4 .be [b0, b1, b2, b3]).toNat =
      b0.toNat * 2 ^ 24 + b1.toNat * 2 ^ 16 + b2.toNat * 2 ^ 8 + b3.toNat := by
  have hpack : pack4 .be [b0, b1, b2, b3] = concat16 (concat8 b0 b1) (concat8 b2 b3) := rfl
  rw [hpack, toNat_concat16, toNat_concat8, toNat_concat8]
  omega

theorem toNat_pack4_le :
    (pack4 .le [b0, b1, b2, b3]).toNat =
      b0.toNat + b1.toNat * 2 ^ 8 + b2.toNat * 2 ^ 16 + b3.toNat * 2 ^ 24 := by
  have hpack : pack4 .le [b0, b1, b2, b3] = concat16 (concat8 b3 b2) (concat8 b1 b0) := rfl
  rw [hpack, toNat_concat16, toNat_concat8, toNat_concat8]
  omega

end

/-! ### Typed reads as reads -/

section
variable (s : State) (addr : Nat)

theorem exec_read8 : exec (.read8 addr) s = exec (.read addr 1) s := by rfl

theorem exec_read16 : exec (.read16 addr) s = exec (.read addr 2) s := by rfl

theorem exec_read32 : exec (.read32 addr) s = exec (.read addr 4) s := by rfl

end

section
variable {s : State} {addr len : Nat}

/-- What a typed read needs of a `READ` in range (R158): the bytes, and the configuration that orders them. -/
theorem exec_read_returns {p : Page} (hs : s.ready) (hp : s.active = designatorOf p)
    (h : addr + len < payloadSize s.cfg) :
    ∃ t, exec (.read addr len) s = .next t ∧ t.status = .ok ∧ t.cfg = s.cfg ∧
      t.rdata = (List.range len).map fun i => s.pageByte p (addr + i) :=
  ⟨_, exec_read_of_inRange hs hp h, rfl, rfl, rfl⟩

theorem exec_read_fails (hs : s.ready) (h : payloadSize s.cfg ≤ addr + len) :
    ∃ t, exec (.read addr len) s = .next t ∧ t.status = .error .outOfRange ∧ t.rdata = s.rdata :=
  ⟨_, exec_read_of_outOfRange hs (.inr h), rfl, rfl⟩

end

end Sys2Proof.Machine
end

section
/-! The statements of spec 44_typed_accessors.md about the typed reads. -/

namespace Sys2Proof.Proofs

open Sys2Proof Sys2Proof.Machine

/-- Settles O30: each typed read is the `READ` of its length, whose bytes are those packed. -/
theorem typedReadsPackBytes : Obligations.TypedReadsPackBytes := by
  intro s addr hs
  rw [exec_read8, exec_read16, exec_read32]
  refine ⟨rfl, rfl, rfl, fun p hp => ⟨fun h => ?_, fun h => ?_, fun h => ?_⟩,
    exec_read_fails hs, exec_read_fails hs, exec_read_fails hs⟩
  all_goals
    obtain ⟨t, ht, hok, hcfg, hdata⟩ := exec_read_returns hs hp h
    refine ⟨t, ht, hok, ?_⟩
  · rw [State.value8, hdata]
    exact pack1_singleton _
  · rw [State.value16, hdata, hcfg]
    cases s.cfg.accOrder with
    | be => exact toNat_pack2_be _ _
    | le => exact toNat_pack2_le _ _
  · rw [State.value32, hdata, hcfg]
    cases s.cfg.accOrder with
    | be => exact toNat_pack4_be _ _ _ _
    | le => exact toNat_pack4_le _ _ _ _

end Sys2Proof.Proofs
end

section
/-! SUPPORT. Accesses without an active page, and a `WRITE` that hangs in step 3 (spec 43_arbiter_write.md R171, R178;
44_typed_accessors.md R201 to R206; 60_exceptions.md R211, R229). -/

namespace Sys2Proof.Machine

/-! ### Accesses without an active page -/

/-- Every form of `READ` does what a `READ` does (R201 to R203). -/
theorem exec_readForm {i : Instr} (hi : readForm i = true) (s : State) :
    ∃ addr len, exec i s = exec (.read addr len) s := by
  cases i with
  | read addr len => exact ⟨addr, len, rfl⟩
  | read8 addr => exact ⟨addr, 1, exec_read8 s addr⟩
  | read16 addr => exact ⟨addr, 2, exec_read16 s addr⟩
  | read32 addr => exact ⟨addr, 4, exec_read32 s addr⟩
  | _ => cases hi

/-- Every well-formed form of `WRITE` does what a `WRITE` of its bytes does (R99, R204 to R206). -/
theorem exec_writeForm_eq_write {i : Instr} {aw : Nat} (hi : writeForm i = true) (hwf : wellFormed aw i = true)
    (s : State) : ∃ addr data, exec i s = exec (.write addr data.length data) s := by
  cases i with
  | write addr len data =>
    obtain ⟨_, hlen⟩ := Bool.and_eq_true_iff.mp hwf
    exact ⟨addr, data, by rw [of_decide_eq_true hlen]⟩
  | write8 addr v => exact ⟨addr, [v], rfl⟩
  | write16 addr v => exact ⟨addr, bytes2 s.cfg.accOrder v, by rw [bytes2_length]; rfl⟩
  | write32 addr v => exact ⟨addr, bytes4 s.cfg.accOrder v, by rw [bytes4_length]; rfl⟩
  | _ => cases hi

/-! ### A program of step 3 that never completes -/

section
variable {s : State} {a : Page} {addr len : Nat} {data : List Byte}

/-- Under an infinite budget SET_STATE hangs in a first program that never completes (R126, R229). -/
theorem setPageState_of_noCompletion {p : Page} {target : PageState} {c : Nat} (h : s.zeroFields p c)
    (hc : c < stateNumber target) (hl : s.lock = .unlocked) (hw : s.cfg.waitBudget = .infinite)
    (hk : s.nextDraw.kind = .noCompletion) :
    setPageState p target s =
      .hung ((s.popDraw.programHalf (fieldAddr s.cfg p c) (s.tornHalf 0x0000)).setFbusy true) := by
  have hle := stateNumber_le target
  have herased : s.readU16 (fieldAddr s.cfg p c) = 0xFFFF := by rw [h c (by omega), if_neg (Nat.lt_irrefl c)]
  rw [setPageState_of_turn (by omega) (h.held hc.le), setField_of_program hc (by rw [herased]; decide),
    writeU16_of_noCompletion _ hl herased hk, noCompletion_infinite (s.popDraw.programHalf _ _) hw,
    Res.orProgramError_hung, Res.andThen_hung]

/-- After an erase and an unlock that succeeded the steps go on with step 3 (R176 to R178). -/
theorem writeSteps_eq_mark_andThen (a b : Page) (hq : s.quiet 2) :
    ∃ rest, writeSteps a b s = (writeStep3 a (s.beforeMark b)).andThen rest := by
  have hdraw1 : s.nextDraw.kind = .doneOk := by rw [State.nextDraw_eq_drawAt]; exact hq 0 (by decide)
  have hdraw2 : (s.afterStep1 b).nextDraw.kind = .doneOk := by
    rw [State.nextDraw_eq_drawAt]; exact s.quiet_popDraw 1 hq 0 (by decide)
  exact ⟨_, by rw [writeSteps, writeStep1_of_doneOk b hdraw1, Res.andThen_done, writeStep2_of_doneOk hdraw2,
    Res.andThen_done, State.afterStep2_afterStep1]⟩

/-- A reset is taken at once, whether the block is idle or hangs (R229, R240). -/
theorem step_of_reset (s : State) {rest : List Input} (hc : legalConfig s.cfg = true)
    (hin : s.inputs = .reset :: rest) : step s = .next s.takeReset := by
  rw [step, whenLegal_of_legal s _ hc, hin]

/-- A `WRITE` from a VALID page hangs in the program of step 3, the halfword of the mark torn (R229). -/
theorem exec_write_of_hungMark (h : WriteAllowed s a addr len data) (hw : s.cfg.waitBudget = .infinite)
    (hvalid : s.pageState a = .valid) (hq : s.quiet 2) (hk : (s.drawAt 2).kind = .noCompletion) :
    exec (.write addr len data) s =
      .next (((s.atMark (otherPage a) addr len data).tornMark a).setFbusy true) := by
  have hzero : s.zeroFields a 2 := (s.pageState_eq_iff_zeroFields a (t := .valid) (by decide)).mp hvalid
  have hdraw : (s.atMark (otherPage a) addr len data).nextDraw.kind = .noCompletion := by
    rw [State.nextDraw_eq_drawAt, State.atMark_drawAt, hk]
  have hmark : writeStep3 a ((s.beginWrite addr len data).beforeMark (otherPage a)) =
      .hung (((s.atMark (otherPage a) addr len data).tornMark a).setFbusy true) :=
    setPageState_of_noCompletion (State.atMark_otherErased addr len data h.ready.1 hzero).fields (by decide) rfl hw
      hdraw
  obtain ⟨rest, hsteps⟩ := writeSteps_eq_mark_andThen (s := s.beginWrite addr len data) a (otherPage a) hq
  rw [exec_write_of_allowed h, hsteps, hmark, Res.andThen_hung, Res.settle_hung]

end

end Sys2Proof.Machine
end

section
/-! The statements of spec 60_exceptions.md. -/

namespace Sys2Proof.Proofs

open Sys2Proof Sys2Proof.Machine

/-- Settles O31: each form is a `READ` or a `WRITE`, and without an active page both fail their precondition. -/
theorem accessBeforeInitIsOutOfRange : Obligations.AccessBeforeInitIsOutOfRange := by
  intro s i hs hactive hwf hform
  rcases hform with hread | hwrite
  · obtain ⟨addr, len, hi⟩ := exec_readForm hread s
    rw [hi, exec_read_of_outOfRange hs (.inl hactive)]
    exact ⟨_, rfl, rfl, rfl, rfl, rfl, rfl, rfl, hactive⟩
  · obtain ⟨addr, data, hi⟩ := exec_writeForm_eq_write hwrite hwf s
    rw [hi, exec_write_of_outOfRange hs (.inl hactive)]
    exact ⟨_, rfl, rfl, rfl, rfl, rfl, rfl, rfl, hactive⟩

/-- Settles O60: the `WRITE` stops where step 3 programs its mark, and the hung block waits or takes a reset as any
other does. -/
theorem hungWriteStaysUntilReset : Obligations.HungWriteStaysUntilReset := by
  intro s a addr len data h hw hvalid hq hk
  refine ⟨_, exec_write_of_hungMark h hw hvalid hq hk, rfl, rfl, rfl, rfl, h.designated, fun rest => ?_, ?_⟩
  · exact ⟨_, step_of_reset _ h.ready.1 rfl, rfl, rfl, rfl⟩
  · exact waitsWhenNothingIsDelivered _ h.ready.1 rfl

/-- Settles O4: the frame does not decode, and rejecting it writes `STATUS` and `BUSY`. -/
theorem illegalHostCommandSetsStatusOnly : Obligations.IllegalHostCommandSetsStatusOnly := by
  intro s word data rest hs hin hreset h1 h2 h3 h4
  have hnone : (s.setInputs rest).resetInside = false := decide_eq_false hreset
  rw [step_of_rejected hin (decodeFrame_illegal h1 h2 h3 h4),
    rejectFrame_illegalCommand _ (s := s.setInputs rest) hs.2.1 hs.1, State.endIn_of_none _ _ hnone]
  rfl

end Sys2Proof.Proofs
end

section
/-! SUPPORT. Erase and unlock that power loss meets in progress, and the halfword a torn program leaves (spec
20_memory.md R61, R62; 70_reset_and_hazards.md R243). -/

namespace Sys2Proof.Machine

theorem erasePage_of_cutDuring (a : Nat) {s : State} (hk : s.nextDraw.kind = .cutDuring) :
    erasePage a s = .powerLost (s.tearPage a) := by
  simp [erasePage, hk]

theorem unlockFlash_of_cutDuring {s : State} (hk : s.nextDraw.kind = .cutDuring) :
    unlockFlash s = .powerLost s.popDraw := by
  simp [unlockFlash, hk]

/-- A torn program leaves an element of `torn(v)` in its halfword (R62). -/
theorem State.readU16_programHalf_tornHalf (s t : State) (a : Nat) (v : Half) :
    (t.programHalf a (s.tornHalf v)).readU16 a &&& v = v := by
  rw [State.readU16_programHalf_self, State.tornHalf_mem]

end Sys2Proof.Machine
end

section
/-! The statements of spec 70_reset_and_hazards.md about power loss at a single call. -/

namespace Sys2Proof.Proofs

open Sys2Proof Sys2Proof.Machine

/-- Settles O11: a call that had not begun takes its draw and nothing else; one in progress tears the halfword or the
page it was given, and an unlock has no bytes to tear. -/
theorem powerLossInsideACallTearsItsTarget : Obligations.PowerLossInsideACallTearsItsTarget := by
  intro s
  rw [← State.nextDraw_eq_drawAt]
  refine ⟨fun hbefore => ⟨?program, ?erase, ?unlock⟩, fun hduring => ⟨?tornProgram, ?tornErase, ?tornUnlock⟩⟩
  case program => exact fun a v hl he => writeU16_of_cutBefore v hl he hbefore
  case erase => exact fun p => erasePage_of_cutBefore (base s.cfg p) hbefore
  case unlock => exact unlockFlash_of_cutBefore hbefore
  case tornProgram =>
    intro a v hl he
    exact ⟨_, writeU16_of_cutDuring v hl he hduring, s.readU16_programHalf_tornHalf s.popDraw a v,
      fun b => s.popDraw.read_programHalf_other a (s.tornHalf v)⟩
  case tornErase =>
    exact fun p => ⟨_, erasePage_of_cutDuring (base s.cfg p) hduring, fun _ => s.read_tearPage_other p⟩
  case tornUnlock => exact ⟨_, unlockFlash_of_cutDuring hduring, rfl⟩

end Sys2Proof.Proofs
end
